-- ==== Sys2Proof/Word.lean ====
section
/-! DEFINITION. The words of DLC: the 32-bit register word, the byte of a bus lane, and bit strings (a length and a packed value). -/

namespace Sys2Proof

/-- One byte lane of the register bus (R59). -/
abbrev Byte := BitVec 8

/-- A whole 32-bit register, the only unit the register bus moves (R20, R57). -/
abbrev Word := BitVec 32

/-- The packed value of a bit string, as wide as the largest legal BMAX (R8, R60).
An instance with a smaller BMAX keeps the bits at and above BMAX equal to 0 (log entry 3). -/
abbrev Bits := BitVec 1024

/-- A bit string of R60: the pair (L, V) of a length and a right-aligned packed value. -/
structure BitString where
  /-- L, the length in bits: 16 bits wide (R15). -/
  len : BitVec 16
  /-- V, the packed value: character s[i] is bit L-1-i. -/
  bits : Bits
  deriving DecidableEq, Repr

/-- The empty string, (0, 0). -/
def BitString.empty : BitString := ⟨0, 0⟩

end Sys2Proof
end

