-- ==== Sys2Proof/Config.lean ====
section
/-! DEFINITION. What an instance of DLC fixes: the four OPEN parameters of R8, their legal ranges, and the constants. -/

namespace Sys2Proof

/-- The OPEN parameters of R8. A State holds the parameters of its instance (log entry 1), so that every rule reads
them by name and one step function serves every legal instance. -/
structure Params where
  /-- BMAX: capacity in bits of DATA, RESULT, a BUF payload and the TX codeword. -/
  bmax : Nat
  /-- WMAX: number of frame-buffer slots, the largest window CONFIGURE accepts. -/
  wmax : Nat
  /-- SEQ_W: width of sequence numbers in bits. -/
  seqW : Nat
  /-- SEQ_INIT: number of the first frame of a session. -/
  seqInit : Nat
  deriving DecidableEq, Repr

namespace Params

/-- The defaults of R8. -/
def default : Params := { bmax := 256, wmax := 8, seqW := 16, seqInit := 1 }

/-- DW, the number of 32-bit words in DATA and RESULT (R8, R9). -/
def dw (p : Params) : Nat := p.bmax / 32

/-- SEQ_LIMIT, the first sequence number DLC never gives a frame (R9). -/
def seqLimit (p : Params) : Nat := 2 ^ p.seqW - 1

/-- The legal ranges of R8. -/
def legal (p : Params) : Bool :=
  64 ≤ p.bmax && p.bmax ≤ 1024 && p.bmax % 32 == 0
    && 1 ≤ p.wmax && p.wmax ≤ 255
    && 2 ≤ p.seqW && p.seqW ≤ 16
    && 1 ≤ p.seqInit && p.seqInit ≤ 2 ^ p.seqW - 2

end Params

namespace Config

/-- KMAX, the width of the CRC key register (R8, fixed). -/
def kmax : Nat := 64

/-- BEB_CAP, the exponent cap of binary exponential backoff (R8, fixed). -/
def bebCap : Nat := 10

end Config

end Sys2Proof
end

