-- ==== Sys2Proof/Machine/State.lean ====
section
/-! DEFINITION. The state of DLC as plain data: every element of R15, then the model's own fields (parameters, inputs still to come, outputs of the last cycle); and the state after reset. -/

namespace Sys2Proof.Machine

open Sys2Proof

/-- The status codes of R140. Codes 9 to 15 are never written (I15), so they have no constructor. -/
inductive StatusCode where
  | ok
  | malformedInput
  | invalidKey
  | invalidAck
  | windowFull
  | notConfigured
  | seqExhausted
  | illegalCommand
  | invalidConfig
  deriving DecidableEq, Repr

/-- CFG_MODE and ACT_MODE: 0 = CRC, 1 = parity (R31). -/
inductive CheckMode where
  | crc
  | parity
  deriving DecidableEq, Repr

/-- CFG_BO_MODE and ACT_BO_MODE: 0 = NONE, the immediate retry; 1 = BEB (R31). -/
inductive BackoffMode where
  | immediate
  | beb
  deriving DecidableEq, Repr

/-- CS, the state of the CSMA/CD unit (R101). -/
inductive CsState where
  | idle
  | transmitting
  | backoff
  deriving DecidableEq, Repr

/-- The configuration fields of R31 to R36; the CFG_ and the ACT_ registers have this one layout (R37). -/
structure ConfigRegs where
  mode : CheckMode
  boMode : BackoffMode
  win : BitVec 8
  timeout : Word
  maxRetry : BitVec 16
  slot : BitVec 16
  key : BitVec 64
  deriving DecidableEq, Repr

/-- Every configuration field 0 (R31 to R37). -/
def ConfigRegs.zero : ConfigRegs :=
  { mode := .crc, boMode := .immediate, win := 0, timeout := 0, maxRetry := 0, slot := 0, key := 0 }

/-- The four sticky flags of STATUS (R22). -/
structure StickyFlags where
  invAck : Bool
  abort : Bool
  tout : Bool
  spur : Bool
  deriving DecidableEq, Repr

/-- Every sticky flag clear. -/
def StickyFlags.clear : StickyFlags := ⟨false, false, false, false⟩

/-- The statistics counters of R30. -/
structure Counters where
  txok : Word
  coll : Word
  abort : Word
  invAck : Word
  tout : Word
  deriving DecidableEq, Repr

/-- Every statistics counter 0. -/
def Counters.zero : Counters := ⟨0, 0, 0, 0, 0⟩

/-- The TX holding register {TXH_VALID, TXH_SEQ, TXH_LEN, TXH_CW} (R47); `frame` is the pair (TXH_LEN, TXH_CW). -/
structure TxHold where
  valid : Bool
  seq : BitVec 16
  frame : BitString
  deriving DecidableEq, Repr

/-- The holding register with no frame: all fields 0 (R27). -/
def TxHold.none : TxHold := ⟨false, 0, BitString.empty⟩

/-- BUF (R46): sequence numbers with their payloads, in one canonical form, keys strictly rising
(log entry 7). -/
abbrev Buffer := List (Nat × BitString)

/-- The inputs of one cycle (R49). -/
structure Inputs where
  rst : Bool
  busValid : Bool
  busWrite : Bool
  busAddr : BitVec 12
  busSize : BitVec 3
  busWdata : Word
  tick : Bool
  respValid : Bool
  respCollision : Bool
  boDraw : BitVec 10
  deriving DecidableEq, Repr

/-- A cycle with no input: `wait` of R84. -/
def Inputs.idle : Inputs :=
  { rst := false, busValid := false, busWrite := false, busAddr := 0, busSize := 0, busWdata := 0,
    tick := false, respValid := false, respCollision := false, boDraw := 0 }

/-- The bus outputs of a cycle, bus_rdata and bus_err (R49, R56). -/
structure BusOut where
  rdata : Word
  err : Bool
  deriving DecidableEq, Repr

/-- The bus outputs of a cycle with no bus access (R56). -/
def BusOut.zero : BusOut := ⟨0, false⟩

/-- The state: the elements of R15, and three fields that are the model's own (log entries 1 and 2):
`params`, `inputs` and `out`, of which none is an element of DLC. Sequence numbers are 16 bits wide, the
largest legal SEQ_W, and stay below 2^SEQ_W (R44; log entry 3). -/
structure State where
  /-- The instance's parameters (R8): the model's own field, never changed by a step (log entry 1). -/
  params : Params
  /-- The staged configuration, CFG_ (R31 to R36). -/
  cfg : ConfigRegs
  /-- The active configuration, ACT_ (R37). -/
  act : ConfigRegs
  /-- CFG_VALID (R37). -/
  cfgValid : Bool
  /-- The pair (DATA_LEN, DATA) (R16, R38). -/
  data : BitString
  /-- The pair (RESULT_LEN, RESULT) (R16, R39). -/
  result : BitString
  /-- STATUS.LAST (R22). -/
  last : StatusCode
  /-- STATUS.VERDICT (R22). -/
  verdict : Bool
  /-- F_INVACK, F_ABORT, F_TOUT and F_SPUR (R22). -/
  flags : StickyFlags
  /-- BASE, oldest unacknowledged (R25). -/
  base : BitVec 16
  /-- NEXT, next to send (R25). -/
  next : BitVec 16
  /-- TXPTR, next to start on the channel (R25). -/
  txptr : BitVec 16
  /-- BUF (R46). -/
  buf : Buffer
  /-- TMR (R26). -/
  tmr : Word
  /-- TMR_RUN (R26). -/
  tmrRun : Bool
  /-- CS (R101). -/
  cs : CsState
  /-- TXH_VALID, TXH_SEQ, TXH_LEN and TXH_CW (R27, R47). -/
  txh : TxHold
  /-- COLL (R28). -/
  coll : BitVec 16
  /-- BOCNT (R29). -/
  bocnt : Word
  /-- CNT_TXOK, CNT_COLL, CNT_ABORT, CNT_INVACK and CNT_TOUT (R30). -/
  counters : Counters
  /-- The inputs of the cycles to come, next cycle first; after them every cycle has no input (log entry 2). -/
  inputs : List Inputs
  /-- bus_rdata and bus_err of the last cycle (R49; log entry 2). -/
  out : BusOut
  deriving DecidableEq, Repr

/-- Why a step stops. -/
inductive Fault where
  /-- Raised by an attempt start (`txStart`, R102) that finds no BUF entry at TXPTR. R41 says the entry is always
  there, so no state that satisfies the invariants raises it. Safe: the model stops (log entry 4). -/
  | bufferEntryMissing (seq : Nat)
  deriving DecidableEq, Repr

/-- Why the model gives an instruction no meaning. -/
inductive Refusal where
  /-- Raised by an arm of `exec` whose instruction has no meaning yet; no arm of this model does. Safe. -/
  | notModelled (mnemonic : String)
  deriving DecidableEq, Repr

/-- The state of an instance right after reset (R152), with the model's own fields at `params`, no inputs to come and
bus outputs 0. -/
def State.resetFor (p : Params) : State :=
  { params := p
    cfg := ConfigRegs.zero
    act := ConfigRegs.zero
    cfgValid := false
    data := BitString.empty
    result := BitString.empty
    last := .ok
    verdict := false
    flags := StickyFlags.clear
    base := BitVec.ofNat 16 p.seqInit
    next := BitVec.ofNat 16 p.seqInit
    txptr := BitVec.ofNat 16 p.seqInit
    buf := []
    tmr := 0
    tmrRun := false
    cs := .idle
    txh := TxHold.none
    coll := 0
    bocnt := 0
    counters := Counters.zero
    inputs := []
    out := BusOut.zero }

/-- The machine right after reset, at the default parameters of R8. -/
def State.reset : State := State.resetFor Params.default

end Sys2Proof.Machine
end

