-- ==== Sys2Proof/Machine/Ops.lean ====
section
/-! DEFINITION. The shared operations: numbers and GF(2) remainders, the frame buffer, the named updates of the state, and the transitions that several rules call (on_timeout, timer_after_tx, session_reset, RESET). -/

namespace Sys2Proof.Machine

open Sys2Proof

/-! ### Numbers -/

/-- `bitlen(v)` of R12: the position of the highest 1 bit plus one, 0 for 0. -/
def bitlen (v : Nat) : Nat := if v = 0 then 0 else Nat.log2 v + 1

/-- The 1 bits of v below position n. -/
def popcountBelow : Nat → Bits → Nat
  | 0, _ => 0
  | n + 1, v => popcountBelow n v + (v.getLsbD n).toNat

/-- `popcount(v)` of R12. -/
def popcount (v : Bits) : Nat := popcountBelow 1024 v

/-- The loop of `polymod` (R13): `k` iterations are left, at bit positions i = r+k-1 down to r. -/
def polymodLoop (g : Bits) (r : Nat) : Nat → Bits → Bits
  | 0, v => v
  | k + 1, v => polymodLoop g r k (if v.getLsbD (r + k) then v ^^^ (g <<< k) else v)

/-- `polymod(V, n, G)` of R13, r = bitlen(G) - 1. With n <= r the loop does nothing. -/
def polymod (v : Bits) (n : Nat) (g : BitVec 64) : Bits :=
  let r := bitlen g.toNat - 1
  polymodLoop (g.setWidth 1024) r (n - r) v

/-! ### The frame buffer -/

namespace Buffer

/-- The canonical form of BUF: keys strictly rising. -/
def wf (b : Buffer) : Bool := decide (b.Pairwise fun x y => x.1 < y.1)

/-- BUF[q], where q is a key (R46). -/
def get : Buffer → Nat → Option BitString
  | [], _ => none
  | (k, x) :: b, q => if q = k then some x else get b q

/-- `BUF[q] <- p`: the entry takes its place in key order. -/
def put : Buffer → Nat → BitString → Buffer
  | [], q, p => [(q, p)]
  | (k, x) :: b, q, p =>
    if q < k then (q, p) :: (k, x) :: b
    else if q = k then (q, p) :: b
    else (k, x) :: put b q p

/-- `remove BUF[q] for every q with lo <= q <= hi` (R119). -/
def removeRange (b : Buffer) (lo hi : Nat) : Buffer := b.filter fun e => !(lo ≤ e.1 && e.1 ≤ hi)

end Buffer

/-! ### Named updates -/

namespace State

/-- `set_status(c)` (R12, R141). -/
def setStatus (c : StatusCode) (s : State) : State := { s with last := c }

/-- VERDICT <- v (R97). -/
def setVerdict (v : Bool) (s : State) : State := { s with verdict := v }

/-- The bus outputs of the cycle (R56). -/
def setOut (o : BusOut) (s : State) : State := { s with out := o }

/-- TMR <- 0; TMR_RUN <- 0. -/
def stopTimer (s : State) : State := { s with tmr := 0, tmrRun := false }

/-- TMR <- ACT_TIMEOUT; TMR_RUN <- 1 (R115, R119). -/
def loadTimer (s : State) : State := { s with tmr := s.act.timeout, tmrRun := true }

/-- CS <- Idle and TXH cleared whole, in one sub-step (R27, R105, R107, R128). -/
def releaseHold (s : State) : State := { s with cs := .idle, txh := TxHold.none }

/-- NEXT - BASE, the number of outstanding frames (R24). -/
def outstanding (s : State) : Nat := s.next.toNat - s.base.toNat

end State

/-! ### Transitions several rules call -/

/-- `timer_after_tx()` (R115). -/
def timerAfterTx (s : State) : State :=
  if s.act.timeout ≠ 0 ∧ s.next ≠ s.base then s.loadTimer else s

/-- `on_timeout()` (R117). -/
def onTimeout (s : State) : State :=
  if s.next = s.base then s
  else
    { s.stopTimer with
      txptr := s.base
      counters := { s.counters with tout := s.counters.tout + 1 }
      flags := { s.flags with tout := true } }

/-- `session_reset()` (R128). -/
def sessionReset (s : State) : State :=
  let init := BitVec.ofNat 16 s.params.seqInit
  { s.stopTimer.releaseHold with
    base := init, next := init, txptr := init, buf := [], coll := 0, bocnt := 0 }

/-- `RESET()` (R124, R152): every element of DLC takes its reset value and the bus outputs are 0. The instance's
parameters and the inputs still to come are not elements of DLC and stay. -/
def resetAll (s : State) : State := { State.resetFor s.params with inputs := s.inputs }

/-- Sequencing of sub-steps: a stop ends the cycle. -/
def andThen (o : Host.Outcome State Fault Refusal) (f : State → Host.Outcome State Fault Refusal) :
    Host.Outcome State Fault Refusal :=
  match o with
  | .next s => f s
  | .fault r => .fault r
  | .refused r => .refused r

end Sys2Proof.Machine
end

