-- ==== Sys2Proof/Machine/Flags.lean ====
section
/-! DEFINITION. The status codes as numbers, the fields of STATUS and STATE as the host reads them, and the W1C clear of the sticky flags. -/

namespace Sys2Proof.Machine

open Sys2Proof

/-- The 4-bit code of R140. -/
def StatusCode.code : StatusCode → BitVec 4
  | .ok => 0
  | .malformedInput => 1
  | .invalidKey => 2
  | .invalidAck => 3
  | .windowFull => 4
  | .notConfigured => 5
  | .seqExhausted => 6
  | .illegalCommand => 7
  | .invalidConfig => 8

/-- The value CS reads as in STATE[5:4] (R24). -/
def CsState.code : CsState → BitVec 2
  | .idle => 0
  | .transmitting => 1
  | .backoff => 2

/-- The bit CFG_MODE reads as (R31). -/
def CheckMode.bit : CheckMode → Bool
  | .crc => false
  | .parity => true

/-- The mode a written CFG_MODE bit selects (R31). -/
def CheckMode.ofBit : Bool → CheckMode
  | false => .crc
  | true => .parity

/-- The bit CFG_BO_MODE reads as (R31). -/
def BackoffMode.bit : BackoffMode → Bool
  | .immediate => false
  | .beb => true

/-- The mode a written CFG_BO_MODE bit selects (R31). -/
def BackoffMode.ofBit : Bool → BackoffMode
  | false => .immediate
  | true => .beb

/-- The value of STATUS (R22): bits 31:12 reserved, 11:8 the sticky flags, 7:5 reserved, 4 VERDICT, 3:0 LAST. -/
def statusWord (s : State) : Word :=
  0#20 ++ BitVec.ofBool s.flags.spur ++ BitVec.ofBool s.flags.tout ++ BitVec.ofBool s.flags.abort
    ++ BitVec.ofBool s.flags.invAck ++ 0#3 ++ BitVec.ofBool s.verdict ++ s.last.code

/-- A bus write to STATUS: for i in 8..11, a 1 at bit i clears the flag at bit i, and nothing else happens (R22). -/
def clearFlags (w : Word) (s : State) : State :=
  { s with flags :=
      { invAck := s.flags.invAck && !w.getLsbD 8
        abort := s.flags.abort && !w.getLsbD 9
        tout := s.flags.tout && !w.getLsbD 10
        spur := s.flags.spur && !w.getLsbD 11 } }

/-- STATE.OCC (R24): the sender's state of R114. -/
def occ (s : State) : BitVec 2 :=
  if s.next = s.base then 0
  else if s.outstanding = s.act.win.toNat then 2
  else 1

/-- STATE.AWAIT (R24). -/
def await (s : State) : Bool := s.next != s.base

/-- The value of STATE (R24), wholly derived. -/
def stateWord (s : State) : Word :=
  0#24 ++ BitVec.ofBool s.cfgValid ++ BitVec.ofBool s.txh.valid ++ s.cs.code
    ++ BitVec.ofBool s.tmrRun ++ BitVec.ofBool (await s) ++ occ s

/-- The value of PARAM (R23). -/
def paramWord (p : Params) : Word :=
  BitVec.ofNat 8 Config.kmax ++ BitVec.ofNat 8 p.dw ++ 0#3 ++ BitVec.ofNat 5 p.seqW ++ BitVec.ofNat 8 p.wmax

end Sys2Proof.Machine
end

