-- ==== Sys2Proof/Machine/Operands.lean ====
section
/-! DEFINITION. The operands of commands: bit strings and their packing, the DATA operand's well-formedness check, its host words, and the key. -/

namespace Sys2Proof.Machine

open Sys2Proof

/-- V of R60 for the characters s[0], s[1], ...: s[0] is the most significant bit. -/
def packValue (s : List Bool) : Nat := s.foldl (fun v c => 2 * v + c.toNat) 0

/-- The packing of a bit string (R60). -/
def pack (s : List Bool) : BitString := ⟨BitVec.ofNat 16 s.length, BitVec.ofNat 1024 (packValue s)⟩

/-- A pair (L, V) is well formed for a capacity: L <= capacity, and no bit of V is set at or above L (R17, R44). -/
def wellFormed (capacity : Nat) (b : BitString) : Bool :=
  b.len.toNat ≤ capacity && b.bits >>> b.len.toNat == 0

/-- `operand_ok()` (R17). -/
def operandOk (s : State) : Bool := wellFormed s.params.bmax s.data

/-- Host word j of a BMAX-wide register: bits 32j+31 to 32j (R38, R39). -/
def hostWord (v : Bits) (j : Nat) : Word := v.extractLsb' (32 * j) 32

/-- `v` with host word j replaced (R38, R64). -/
def setHostWord (v : Bits) (j : Nat) (w : Word) : Bits :=
  (v &&& ~~~((0xFFFFFFFF : Bits) <<< (32 * j))) ||| (w.setWidth 1024 <<< (32 * j))

/-- Key validity (R95): bitlen(G) >= 2 and G is not a power of two. -/
def keyValid (g : BitVec 64) : Bool :=
  2 ≤ bitlen g.toNat && g.toNat != 2 ^ (bitlen g.toNat - 1)

/-- `r()`, the number of redundancy bits under a configuration (R87). -/
def redundancy (c : ConfigRegs) : Nat :=
  match c.mode with
  | .parity => 1
  | .crc => bitlen c.key.toNat - 1

/-- The capacity check of ENCODE and SEND: DATA_LEN + r() <= BMAX (R90). -/
def fitsCodeword (s : State) : Bool := s.data.len.toNat + redundancy s.act ≤ s.params.bmax

end Sys2Proof.Machine
end

