-- ==== Sys2Proof/Machine/Bus.lean ====
section
/-! DEFINITION. The register map of R20, the refusals of the register bus, and reads and storage writes of registers. -/

namespace Sys2Proof.Machine

open Sys2Proof

/-- The registers of R20. -/
inductive Reg where
  | cmd | status | param | state | base | next | txptr | tmr | txh | coll | bocnt
  | cntTxok | cntColl | cntAbort | cntInvAck | cntTout
  | cfgCtrl | cfgWin | cfgTimeout | cfgMaxRetry | cfgSlot | cfgKeyLo | cfgKeyHi
  | actCtrl | actWin | actTimeout | actMaxRetry | actSlot | actKeyLo | actKeyHi
  | dataLen | data (j : Nat) | resultLen | result (j : Nat)
  deriving DecidableEq, Repr

/-- Access types of R20. STATUS is read-only with W1C bits: a write to it is allowed (R22). -/
inductive Access where
  | rw
  | ro
  | wo
  | w1c
  deriving DecidableEq, Repr

/-- The access type of a register (R20). -/
def Reg.access : Reg → Access
  | .cmd => .wo
  | .status => .w1c
  | .cfgCtrl | .cfgWin | .cfgTimeout | .cfgMaxRetry | .cfgSlot | .cfgKeyLo | .cfgKeyHi => .rw
  | .dataLen | .data _ => .rw
  | .param | .state | .base | .next | .txptr | .tmr | .txh | .coll | .bocnt => .ro
  | .cntTxok | .cntColl | .cntAbort | .cntInvAck | .cntTout => .ro
  | .actCtrl | .actWin | .actTimeout | .actMaxRetry | .actSlot | .actKeyLo | .actKeyHi => .ro
  | .resultLen | .result _ => .ro

/-- The byte offset of a register (R20). -/
def Reg.offset : Reg → Nat
  | .cmd => 0x000
  | .status => 0x004
  | .param => 0x008
  | .state => 0x00C
  | .base => 0x010
  | .next => 0x014
  | .txptr => 0x018
  | .tmr => 0x01C
  | .txh => 0x020
  | .coll => 0x024
  | .bocnt => 0x028
  | .cntTxok => 0x030
  | .cntColl => 0x034
  | .cntAbort => 0x038
  | .cntInvAck => 0x03C
  | .cntTout => 0x040
  | .cfgCtrl => 0x080
  | .cfgWin => 0x084
  | .cfgTimeout => 0x088
  | .cfgMaxRetry => 0x08C
  | .cfgSlot => 0x090
  | .cfgKeyLo => 0x094
  | .cfgKeyHi => 0x098
  | .actCtrl => 0x0A0
  | .actWin => 0x0A4
  | .actTimeout => 0x0A8
  | .actMaxRetry => 0x0AC
  | .actSlot => 0x0B0
  | .actKeyLo => 0x0B4
  | .actKeyHi => 0x0B8
  | .dataLen => 0x100
  | .data j => 0x180 + 4 * j
  | .resultLen => 0x200
  | .result j => 0x280 + 4 * j

/-- The registers with one fixed offset, in the order of R20. -/
def fixedRegs : List Reg :=
  [.cmd, .status, .param, .state, .base, .next, .txptr, .tmr, .txh, .coll, .bocnt,
   .cntTxok, .cntColl, .cntAbort, .cntInvAck, .cntTout]
  ++ [.cfgCtrl, .cfgWin, .cfgTimeout, .cfgMaxRetry, .cfgSlot, .cfgKeyLo, .cfgKeyHi]
  ++ [.actCtrl, .actWin, .actTimeout, .actMaxRetry, .actSlot, .actKeyLo, .actKeyHi]
  ++ [.dataLen, .resultLen]

/-- Whether an instance has a register: DATA[j] and RESULT[j] exist for j < DW (R20). -/
def Reg.exists (p : Params) : Reg → Bool
  | .data j => j < p.dw
  | .result j => j < p.dw
  | _ => true

/-- The register at a word-aligned byte offset; `none` is unmapped (R20). -/
def regAt (p : Params) (a : Nat) : Option Reg :=
  match fixedRegs.find? (fun r => r.offset == a) with
  | some r => some r
  | none =>
    if 0x180 ≤ a ∧ a < 0x180 + 4 * p.dw then some (.data ((a - 0x180) / 4))
    else if 0x280 ≤ a ∧ a < 0x280 + 4 * p.dw then some (.result ((a - 0x280) / 4))
    else none

/-- Why the bus refuses an access, in the order R65 tests. -/
inductive BusRefusal where
  | badSize
  | misaligned
  | unmapped
  | readOnly
  deriving DecidableEq, Repr

/-- R65: the cause that refuses an access, or the register it reaches. -/
def busTarget (p : Params) (write : Bool) (addr : BitVec 12) (size : BitVec 3) : Except BusRefusal Reg :=
  if size ≠ 4 then .error .badSize
  else if addr.toNat % 4 ≠ 0 then .error .misaligned
  else
    match regAt p addr.toNat with
    | none => .error .unmapped
    | some r => if write = true ∧ r.access = .ro then .error .readOnly else .ok r

/-- CFG_CTRL or ACT_CTRL: bit 0 the check mode, bit 1 the backoff mode, bits 31:2 read 0 (R31, R37). -/
def ctrlWord (c : ConfigRegs) : Word := 0#30 ++ BitVec.ofBool c.boMode.bit ++ BitVec.ofBool c.mode.bit

/-- The value of a register (R20 to R39); reserved and unused bits read 0 (R66), and CMD reads 0 (R21). -/
def readReg (s : State) : Reg → Word
  | .cmd => 0
  | .status => statusWord s
  | .param => paramWord s.params
  | .state => stateWord s
  | .base => s.base.setWidth 32
  | .next => s.next.setWidth 32
  | .txptr => s.txptr.setWidth 32
  | .tmr => s.tmr
  | .txh => s.txh.frame.len ++ s.txh.seq
  | .coll => s.coll.setWidth 32
  | .bocnt => s.bocnt
  | .cntTxok => s.counters.txok
  | .cntColl => s.counters.coll
  | .cntAbort => s.counters.abort
  | .cntInvAck => s.counters.invAck
  | .cntTout => s.counters.tout
  | .cfgCtrl => ctrlWord s.cfg
  | .cfgWin => s.cfg.win.setWidth 32
  | .cfgTimeout => s.cfg.timeout
  | .cfgMaxRetry => s.cfg.maxRetry.setWidth 32
  | .cfgSlot => s.cfg.slot.setWidth 32
  | .cfgKeyLo => s.cfg.key.extractLsb' 0 32
  | .cfgKeyHi => s.cfg.key.extractLsb' 32 32
  | .actCtrl => ctrlWord s.act
  | .actWin => s.act.win.setWidth 32
  | .actTimeout => s.act.timeout
  | .actMaxRetry => s.act.maxRetry.setWidth 32
  | .actSlot => s.act.slot.setWidth 32
  | .actKeyLo => s.act.key.extractLsb' 0 32
  | .actKeyHi => s.act.key.extractLsb' 32 32
  | .dataLen => s.data.len.setWidth 32
  | .data j => hostWord s.data.bits j
  | .resultLen => s.result.len.setWidth 32
  | .result j => hostWord s.result.bits j

/-- A write to a register other than CMD that the bus does not refuse: the W1C clear of STATUS (R22), or the storage
write of R64, which keeps a register's defined bits and drops the rest (R66). A read-only register keeps its value;
the bus refuses such a write before it comes here. -/
def writeReg (s : State) (r : Reg) (w : Word) : State :=
  match r with
  | .status => clearFlags w s
  | .cfgCtrl =>
    { s with cfg := { s.cfg with mode := .ofBit (w.getLsbD 0), boMode := .ofBit (w.getLsbD 1) } }
  | .cfgWin => { s with cfg := { s.cfg with win := w.setWidth 8 } }
  | .cfgTimeout => { s with cfg := { s.cfg with timeout := w } }
  | .cfgMaxRetry => { s with cfg := { s.cfg with maxRetry := w.setWidth 16 } }
  | .cfgSlot => { s with cfg := { s.cfg with slot := w.setWidth 16 } }
  | .cfgKeyLo => { s with cfg := { s.cfg with key := s.cfg.key.extractLsb' 32 32 ++ w } }
  | .cfgKeyHi => { s with cfg := { s.cfg with key := w ++ s.cfg.key.extractLsb' 0 32 } }
  | .dataLen => { s with data := { s.data with len := w.setWidth 16 } }
  | .data j => { s with data := { s.data with bits := setHostWord s.data.bits j w } }
  | _ => s

end Sys2Proof.Machine
end

