-- ==== Sys2Proof/Machine/Checker.lean ====
section
/-! DEFINITION. The CRC/parity checker (ErrorCode): encode and verify, and the commands ENCODE and VERIFY. -/

namespace Sys2Proof.Machine

open Sys2Proof

/-- `crc_encode(L, V)` (R88). -/
def crcEncode (g : BitVec 64) (p : BitString) : BitString :=
  let r := bitlen g.toNat - 1
  let padded := p.bits <<< r
  ⟨BitVec.ofNat 16 (p.len.toNat + r), padded ||| polymod padded (p.len.toNat + r) g⟩

/-- `parity_encode(L, V)` (R89). -/
def parityEncode (p : BitString) : BitString :=
  ⟨BitVec.ofNat 16 (p.len.toNat + 1), (p.bits <<< 1) ||| BitVec.ofNat 1024 (popcount p.bits % 2)⟩

/-- `encode(L, V)` under a configuration (R90). -/
def encodeWith (c : ConfigRegs) (p : BitString) : BitString :=
  match c.mode with
  | .parity => parityEncode p
  | .crc => crcEncode c.key p

/-- `crc_verify(L, V)` (R92). -/
def crcVerify (g : BitVec 64) (c : BitString) : Bool :=
  if c.len.toNat < bitlen g.toNat - 1 then false
  else polymod c.bits c.len.toNat g == 0

/-- `parity_verify(L, V)` (R93): the last bit against the parity of the bits before it. -/
def parityVerify (c : BitString) : Bool :=
  if c.len.toNat < 1 then false
  else c.bits.getLsbD 0 == (popcount (c.bits >>> 1) % 2 == 1)

/-- `verify(L, V)` under a configuration (R94). -/
def verifyWith (c : ConfigRegs) (w : BitString) : Bool :=
  match c.mode with
  | .parity => parityVerify w
  | .crc => crcVerify c.key w

/-- ENCODE (R96). -/
def execEncode (s : State) : Host.Outcome State Fault Refusal :=
  if s.cfgValid = false then .next (s.setStatus .notConfigured)
  else if operandOk s = false then .next (s.setStatus .malformedInput)
  else if fitsCodeword s = false then .next (s.setStatus .malformedInput)
  else .next ({ s with result := encodeWith s.act s.data }.setStatus .ok)

/-- VERIFY (R97). -/
def execVerify (s : State) : Host.Outcome State Fault Refusal :=
  if s.cfgValid = false then .next ((s.setVerdict false).setStatus .notConfigured)
  else if operandOk s = false then .next ((s.setVerdict false).setStatus .malformedInput)
  else .next ((s.setVerdict (verifyWith s.act s.data)).setStatus .ok)

end Sys2Proof.Machine
end

