-- ==== Sys2Proof/Machine/Csma.lean ====
section
/-! DEFINITION. The CSMA/CD controller (AccessController): channel responses, backoff, attempt start, and the TX port. -/

namespace Sys2Proof.Machine

open Sys2Proof

/-- `backoff_ticks(c)` (R108), with the low e bits of this cycle's bo_draw. -/
def backoffTicks (cfg : ConfigRegs) (draw : BitVec 10) (c : BitVec 16) : Word :=
  match cfg.boMode with
  | .immediate => 0
  | .beb => BitVec.ofNat 32 (draw.toNat % 2 ^ min c.toNat Config.bebCap * cfg.slot.toNat)

/-- SENT (R105). -/
def sent (s : State) : State :=
  let s1 := s.releaseHold
  timerAfterTx { s1 with counters := { s1.counters with txok := s1.counters.txok + 1 } }

/-- ABORT (R107). -/
def abort (s : State) : State :=
  let s1 := s.releaseHold
  timerAfterTx { s1 with
    counters := { s1.counters with abort := s1.counters.abort + 1 }
    flags := { s1.flags with abort := true } }

/-- COLL <- min(COLL + 1, 0xFFFF) (R28, R106). -/
def collNext (c : BitVec 16) : BitVec 16 := if c = 0xFFFF then 0xFFFF else c + 1

/-- COLLIDED (R106). -/
def collided (draw : BitVec 10) (s : State) : State :=
  let s1 := { s with
    counters := { s.counters with coll := s.counters.coll + 1 }
    coll := collNext s.coll }
  if s1.act.maxRetry ≠ 0 ∧ s1.act.maxRetry.toNat < s1.coll.toNat then abort s1
  else { s1 with cs := .backoff, bocnt := backoffTicks s1.act draw s1.coll }

/-- SPURIOUS (R104). -/
def spurious (s : State) : State := { s with flags := { s.flags with spur := true } }

/-- RESPOND(collision) (R103), in a cycle with resp_valid = 1. -/
def respond (collision : Bool) (draw : BitVec 10) (s : State) : State :=
  if s.cs ≠ .transmitting then spurious s
  else if collision then collided draw s
  else sent s

/-- The backoff countdown of the tick sub-step (R109). -/
def backoffCountdown (s : State) : State :=
  if s.cs = .backoff ∧ s.bocnt ≠ 0 then { s with bocnt := s.bocnt - 1 } else s

/-- Backoff exit (R110). -/
def backoffExit (s : State) : State := { s with cs := .transmitting }

/-- TX_START (R102). A BUF without an entry at TXPTR, which R41 rules out, stops the model (log entry 4). -/
def txStart (s : State) : Host.Outcome State Fault Refusal :=
  match Buffer.get s.buf s.txptr.toNat with
  | some p =>
    .next { s with
      txh := ⟨true, s.txptr, encodeWith s.act p⟩
      txptr := s.txptr + 1
      coll := 0
      cs := .transmitting }
  | none => .fault (.bufferEntryMissing s.txptr.toNat)

/-- The internal sub-step (R124, step 4): backoff exit, else an attempt start, else nothing. -/
def internal (s : State) : Host.Outcome State Fault Refusal :=
  if s.cs = .backoff ∧ s.bocnt = 0 then .next (backoffExit s)
  else if s.cs = .idle ∧ s.cfgValid = true ∧ s.txptr.toNat < s.next.toNat then txStart s
  else .next s

/-- What the TX port shows at the end of a cycle (R49, R50). -/
structure TxPort where
  valid : Bool
  seq : BitVec 16
  len : BitVec 16
  cw : Bits
  deriving DecidableEq, Repr

/-- The TX port outputs, functions of the state (R50). -/
def txPort (s : State) : TxPort :=
  { valid := s.cs == .transmitting, seq := s.txh.seq, len := s.txh.frame.len, cw := s.txh.frame.bits }

end Sys2Proof.Machine
end

