-- ==== Sys2Proof/Syntax.lean ====
section
/-! DEFINITION. The commands of DLC: one constructor per row of the opcode table, the illegal row included. -/

namespace Sys2Proof

/-- A command word written to CMD, decoded (R78). -/
inductive Instr where
  /-- OP 0 (R126). -/
  | nop
  /-- OP 1 (R96). -/
  | encode
  /-- OP 2 (R97). -/
  | verify
  /-- OP 3 (R118). -/
  | send
  /-- OP 4 with its 16-bit acknowledgment number ARG (R79, R119). -/
  | ack (arg : BitVec 16)
  /-- OP 5 (R120). -/
  | timeout
  /-- OP 6 (R127). -/
  | configure
  /-- OP 7 (R129). -/
  | teardown
  /-- Any word that is not legal, kept whole (R81; log entry 9). -/
  | illegal (w : Word)
  deriving DecidableEq, Repr

end Sys2Proof
end

