-- ==== Sys2Proof/WellFormed.lean ====
section
/-! DEFINITION. Which terms of Instr stand for a command word: every one but an illegal term that holds a legal word. -/

namespace Sys2Proof

/-- R81's "legal iff": OP <= 7, RSV = 0, and ARG = 0 unless OP = 4. The fields are taken by division here, and by
extraction in the decoder, so that the two are written independently. -/
def legalWord (w : Word) : Bool :=
  w.toNat % 16 ≤ 7 && w.toNat / 16 % 4096 == 0 && (w.toNat / 65536 == 0 || w.toNat % 16 == 4)

/-- The one check a command term can fail: `illegal w` stands only for words R81 calls illegal. -/
def Instr.wf : Instr → Bool
  | .nop => true
  | .encode => true
  | .verify => true
  | .send => true
  | .ack _ => true
  | .timeout => true
  | .configure => true
  | .teardown => true
  | .illegal w => !legalWord w

end Sys2Proof
end

