-- ==== Sys2Proof/Decode.lean ====
section
/-! DEFINITION. The decoder of command words, total on words and on byte lists, then the encoder, and the opcode map. -/

namespace Sys2Proof

/-- OP = w[3:0] (R77). -/
def opOf (w : Word) : BitVec 4 := w.extractLsb' 0 4

/-- RSV = w[15:4] (R77). -/
def rsvOf (w : Word) : BitVec 12 := w.extractLsb' 4 12

/-- ARG = w[31:16] (R77). -/
def argOf (w : Word) : BitVec 16 := w.extractLsb' 16 16

/-- The command an opcode below 8 selects (R78); any other opcode is illegal (R81). -/
def commandOf (op : BitVec 4) (arg : BitVec 16) (w : Word) : Instr :=
  match op.toNat with
  | 0 => .nop
  | 1 => .encode
  | 2 => .verify
  | 3 => .send
  | 4 => .ack arg
  | 5 => .timeout
  | 6 => .configure
  | 7 => .teardown
  | _ => .illegal w

/-- `decode(w)` of R81: total, every word is a command or `illegal`. -/
def decodeWord (w : Word) : Instr :=
  if 8 ≤ (opOf w).toNat ∨ rsvOf w ≠ 0 ∨ (opOf w ≠ 4 ∧ argOf w ≠ 0) then .illegal w
  else commandOf (opOf w) (argOf w) w

/-- Why a list of bytes is no command word. -/
inductive DecodeReject where
  /-- The list does not hold exactly the four byte lanes of one word (R83). -/
  | notOneWord (count : Nat)
  deriving DecidableEq, Repr

/-- Byte lane b carries bits 8b+7 to 8b (R59); the first byte is lane 0. -/
def wordOfLanes (b0 b1 b2 b3 : Byte) : Word := b3 ++ b2 ++ b1 ++ b0

/-- The four byte lanes of a word, lane 0 first (R59). -/
def lanesOfWord (w : Word) : List Byte :=
  [w.extractLsb' 0 8, w.extractLsb' 8 8, w.extractLsb' 16 8, w.extractLsb' 24 8]

/-- The decoder on bytes: one 32-bit word, no other length (R83). -/
def decode : List Byte → Except DecodeReject Instr
  | [b0, b1, b2, b3] => .ok (decodeWord (wordOfLanes b0 b1 b2 b3))
  | bs => .error (.notOneWord bs.length)

/-- The word of a command, written from the patterns of R78 and R86. -/
def encode : Instr → Word
  | .nop => 0#16 ++ 0#12 ++ 0b0000#4
  | .encode => 0#16 ++ 0#12 ++ 0b0001#4
  | .verify => 0#16 ++ 0#12 ++ 0b0010#4
  | .send => 0#16 ++ 0#12 ++ 0b0011#4
  | .ack arg => arg ++ 0#12 ++ 0b0100#4
  | .timeout => 0#16 ++ 0#12 ++ 0b0101#4
  | .configure => 0#16 ++ 0#12 ++ 0b0110#4
  | .teardown => 0#16 ++ 0#12 ++ 0b0111#4
  | .illegal w => w

/-- The bytes of a command, lane 0 first. -/
def encodeBytes (i : Instr) : List Byte := lanesOfWord (encode i)

/-- A row of the opcode map of R78: a word w is of the row when `w AND mask = match`. -/
structure OpRow where
  mnemonic : String
  pattern : Word
  mask : Word
  deriving DecidableEq, Repr

/-- Whether a word is of a row of the opcode map. -/
def OpRow.selects (r : OpRow) (w : Word) : Bool := w &&& r.mask == r.pattern

/-- The rows of R78 other than the illegal row. -/
def opcodeMap : List OpRow :=
  [⟨"NOP", 0x00000000, 0xFFFFFFFF⟩, ⟨"ENCODE", 0x00000001, 0xFFFFFFFF⟩,
   ⟨"VERIFY", 0x00000002, 0xFFFFFFFF⟩, ⟨"SEND", 0x00000003, 0xFFFFFFFF⟩,
   ⟨"ACK", 0x00000004, 0x0000FFFF⟩, ⟨"TIMEOUT", 0x00000005, 0xFFFFFFFF⟩,
   ⟨"CONFIGURE", 0x00000006, 0xFFFFFFFF⟩, ⟨"TEARDOWN", 0x00000007, 0xFFFFFFFF⟩]

/-- The name a command has in R78. -/
def Instr.mnemonic : Instr → String
  | .nop => "NOP"
  | .encode => "ENCODE"
  | .verify => "VERIFY"
  | .send => "SEND"
  | .ack _ => "ACK"
  | .timeout => "TIMEOUT"
  | .configure => "CONFIGURE"
  | .teardown => "TEARDOWN"
  | .illegal _ => "(illegal)"

/-- The first `n` byte lanes of the number w, lane 0 first. -/
def lanesOfNat (n w : Nat) : List Byte := (List.range n).map fun b => BitVec.ofNat 8 (w / 2 ^ (8 * b))

/-- What the decoder reads from a row of the opcode table: `nbits` bits numbered as the table numbers them, any bit of
the word above them 0. A command is one word, so fewer bits are padded to four lanes and more are rejected (R83). -/
def decodeTableWord (nbits w : Nat) : Option Instr :=
  match decode (lanesOfNat (max 4 ((nbits + 7) / 8)) (w % 2 ^ nbits)) with
  | .ok i => some i
  | .error _ => none

end Sys2Proof
end

