-- ==== Sys2Proof/Machine/Sender.lean ====
section
/-! DEFINITION. The Go-Back-N sender (ARQSender): the commands SEND, ACK and TIMEOUT, and the timer's countdown. -/

namespace Sys2Proof.Machine

open Sys2Proof

/-- SEND (R118): the checks in the order of R142, then BUF[NEXT] <- the payload and NEXT <- NEXT + 1. -/
def execSend (s : State) : Host.Outcome State Fault Refusal :=
  if s.cfgValid = false then .next (s.setStatus .notConfigured)
  else if operandOk s = false ∨ fitsCodeword s = false then .next (s.setStatus .malformedInput)
  else if s.act.win.toNat ≤ s.outstanding then .next (s.setStatus .windowFull)
  else if s.next.toNat = s.params.seqLimit then .next (s.setStatus .seqExhausted)
  else .next ({ s with
      buf := Buffer.put s.buf s.next.toNat s.data
      next := s.next + 1 }.setStatus .ok)

/-- The effect of a valid ACK (R119): the frames up to `ack` leave BUF, BASE moves past them, TXPTR does not stay
below BASE, and the timer stops when the window empties or else restarts where it is enabled. -/
def ackAccepted (ack : BitVec 16) (s : State) : State :=
  let base := ack + 1
  let s1 := { s with
    buf := Buffer.removeRange s.buf s.base.toNat ack.toNat
    base := base
    txptr := if s.txptr.toNat < base.toNat then base else s.txptr }
  if s1.base = s1.next then s1.stopTimer
  else if s1.act.timeout ≠ 0 then s1.loadTimer
  else s1

/-- The effect of an ACK outside the window (R119). -/
def ackRefused (s : State) : State :=
  { s with
    flags := { s.flags with invAck := true }
    counters := { s.counters with invAck := s.counters.invAck + 1 } }

/-- ACK (R119): the 16-bit number against [BASE, NEXT), unsigned and whole (R79). -/
def execAck (ack : BitVec 16) (s : State) : Host.Outcome State Fault Refusal :=
  if s.base.toNat ≤ ack.toNat ∧ ack.toNat < s.next.toNat then .next ((ackAccepted ack s).setStatus .ok)
  else .next ((ackRefused s).setStatus .invalidAck)

/-- TIMEOUT (R120). -/
def execTimeout (s : State) : Host.Outcome State Fault Refusal := .next ((onTimeout s).setStatus .ok)

/-- The timer countdown of the tick sub-step (R116). -/
def timerCountdown (s : State) : State :=
  if s.tmrRun then
    let s1 := { s with tmr := s.tmr - 1 }
    if s1.tmr = 0 then onTimeout { s1 with tmrRun := false } else s1
  else s

end Sys2Proof.Machine
end

