-- ==== Sys2Proof/Machine/Session.lean ====
section
/-! DEFINITION. The commands that belong to no unit: NOP, CONFIGURE, TEARDOWN, and a word that is no command. -/

namespace Sys2Proof.Machine

open Sys2Proof

/-- NOP (R126). -/
def execNop (s : State) : Host.Outcome State Fault Refusal := .next (s.setStatus .ok)

/-- CONFIGURE (R127): the checks, then CFG_ copied to ACT_, CFG_VALID <- 1 and a new session. -/
def execConfigure (s : State) : Host.Outcome State Fault Refusal :=
  if s.cfg.mode = .crc ∧ keyValid s.cfg.key = false then .next (s.setStatus .invalidKey)
  else if s.cfg.win.toNat < 1 ∨ s.params.wmax < s.cfg.win.toNat then .next (s.setStatus .invalidConfig)
  else .next ((sessionReset { s with act := s.cfg, cfgValid := true }).setStatus .ok)

/-- TEARDOWN (R129). -/
def execTeardown (s : State) : Host.Outcome State Fault Refusal := .next ((sessionReset s).setStatus .ok)

/-- A word that fails decoding: IllegalCommand and no other effect (R81, R125). -/
def execIllegal (_w : Word) (s : State) : Host.Outcome State Fault Refusal := .next (s.setStatus .illegalCommand)

end Sys2Proof.Machine
end

