-- ==== Sys2Proof/Machine/Dispatch.lean ====
section
/-! DEFINITION. Command dispatch (R125): one arm per constructor of Instr, each a call of its meaning. -/

namespace Sys2Proof.Machine

def exec (i : Instr) (s : State) : Host.Outcome State Fault Refusal :=
  match i with
  | .nop => Sys2Proof.Machine.execNop s
  | .encode => Sys2Proof.Machine.execEncode s
  | .verify => Sys2Proof.Machine.execVerify s
  | .send => Sys2Proof.Machine.execSend s
  | .ack arg => Sys2Proof.Machine.execAck arg s
  | .timeout => Sys2Proof.Machine.execTimeout s
  | .configure => Sys2Proof.Machine.execConfigure s
  | .teardown => Sys2Proof.Machine.execTeardown s
  | .illegal w => Sys2Proof.Machine.execIllegal w s

end Sys2Proof.Machine
end

