-- ==== Sys2Proof/Machine/Cycle.lean ====
section
/-! DEFINITION. One clock cycle (R124): reset, then the bus access with command dispatch, the channel response, the time base and the internal transition, in that order. -/

namespace Sys2Proof.Machine

open Sys2Proof

/-- `EXECUTE(w)` (R125): the word written to CMD, decoded and run. -/
def executeWord (w : Word) (s : State) : Host.Outcome State Fault Refusal := exec (decodeWord w) s

/-- Sub-step 1 (R56, R62, R63): a refused access only raises bus_err, a read returns the register's value, a write to
CMD runs a command, and any other write stores. -/
def busSubstep (i : Inputs) (s : State) : Host.Outcome State Fault Refusal :=
  let s0 := s.setOut BusOut.zero
  if i.busValid = false then .next s0
  else
    match busTarget s.params i.busWrite i.busAddr i.busSize with
    | .error _ => .next (s0.setOut ⟨0, true⟩)
    | .ok r =>
      if i.busWrite = false then .next (s0.setOut ⟨readReg s r, false⟩)
      else if r = .cmd then executeWord i.busWdata s0
      else .next (writeReg s0 r i.busWdata)

/-- Sub-step 2 (R103). -/
def respSubstep (i : Inputs) (s : State) : State :=
  if i.respValid then respond i.respCollision i.boDraw s else s

/-- Sub-step 3 (R116, R109). -/
def tickSubstep (i : Inputs) (s : State) : State :=
  if i.tick then backoffCountdown (timerCountdown s) else s

/-- Sub-steps 2 to 4, which follow the bus access in every cycle without reset. -/
def restOfCycle (i : Inputs) (s : State) : Host.Outcome State Fault Refusal :=
  internal (tickSubstep i (respSubstep i s))

/-- `STEP(in)` (R124). -/
def runCycle (i : Inputs) (s : State) : Host.Outcome State Fault Refusal :=
  if i.rst then .next (resetAll s)
  else andThen (busSubstep i s) (restOfCycle i)

/-- The inputs of the next cycle: the head of the list, or none of any kind when the list is empty (log entry 2). -/
def State.currentInputs (s : State) : Inputs :=
  match s.inputs with
  | [] => Inputs.idle
  | i :: _ => i

/-- The state with the next cycle's inputs taken from the list. -/
def State.consumeInputs (s : State) : State := { s with inputs := s.inputs.tail }

/-- The cycle in which the host writes w to CMD, with no other input (R84, `cmd`). -/
def Inputs.commandWrite (w : Word) : Inputs :=
  { Inputs.idle with busValid := true, busWrite := true, busAddr := 0x000, busSize := 4, busWdata := w }

/-- The state whose next cycle is the host's write of w to CMD. -/
def State.withCommandWord (s : State) (w : Word) : State :=
  { s with inputs := Inputs.commandWrite w :: s.inputs }

end Sys2Proof.Machine
end

