-- ==== Sys2Proof/Machine/Step.lean ====
section
/-! DEFINITION. The step: one rising edge of clk on the next inputs of the list. -/

namespace Sys2Proof.Machine

/-- One clock cycle (R124). -/
def step (s : State) : Host.Outcome State Fault Refusal := runCycle s.currentInputs s.consumeInputs

/-- `s` with a command word where the next step takes its command: the host's write of it to CMD is the next cycle's
only input. DLC fetches nothing (R18), so this stands for the host presenting a command (log entry 5). -/
def State.withFetchWord (s : State) (nbits w : Nat) : State := s.withCommandWord (BitVec.ofNat 32 (w % 2 ^ nbits))

end Sys2Proof.Machine
end

