-- ==== Sys2Proof/Machine/Program.lean ====
section
/-! DEFINITION. The host program syntax of R84 to R86: lines of items, pseudo-instructions and their expansions, and the reading of a line's text. -/

namespace Sys2Proof.Machine

open Sys2Proof

/-- A bus item of R84. A register is written by name; `at` is a raw byte offset, `readByte` is `rd.b`. -/
inductive BusItem where
  | write (r : Reg) (imm : Word)
  | read (r : Reg)
  | writeAt (off : BitVec 12) (imm : Word)
  | readAt (off : BitVec 12)
  | readByte (r : Reg)
  | command (w : Word)
  deriving DecidableEq, Repr

/-- An item of a line (R84). -/
inductive Item where
  | bus (b : BusItem)
  | resp (collision : Bool)
  | tick
  | draw (n : BitVec 10)
  | wait
  | rst
  deriving DecidableEq, Repr

/-- A line of a host program: one cycle's items (R84). -/
abbrev Line := List Item

/-- The arguments of `config`; an omitted argument is 0 (R85). -/
structure ConfigArgs where
  mode : CheckMode := .crc
  bo : BackoffMode := .immediate
  win : Word := 0
  timeout : Word := 0
  maxretry : Word := 0
  slot : Word := 0
  key : BitVec 64 := 0
  deriving DecidableEq, Repr

/-- A program line as written: plain items, or a pseudo-instruction (R85). -/
inductive Stmt where
  | line (items : Line)
  | bits (s : List Bool)
  | key (k : BitVec 64)
  | config (a : ConfigArgs)
  | ticks (n : Nat)
  | clrflags
  deriving DecidableEq, Repr

/-! ### The meaning of a line -/

/-- A bus access as inputs of a cycle (R84). -/
def Inputs.access (i : Inputs) (write : Bool) (addr : BitVec 12) (size : BitVec 3) (wdata : Word) : Inputs :=
  { i with busValid := true, busWrite := write, busAddr := addr, busSize := size, busWdata := wdata }

/-- The inputs a bus item names (R84). -/
def BusItem.apply (i : Inputs) : BusItem → Inputs
  | .write r imm => i.access true (BitVec.ofNat 12 r.offset) 4 imm
  | .read r => i.access false (BitVec.ofNat 12 r.offset) 4 0
  | .writeAt off imm => i.access true off 4 imm
  | .readAt off => i.access false off 4 0
  | .readByte r => i.access false (BitVec.ofNat 12 r.offset) 1 0
  | .command w => i.access true (BitVec.ofNat 12 Reg.cmd.offset) 4 w

/-- The inputs an item names, added to those of the items before it (R84). -/
def Item.apply (i : Inputs) : Item → Inputs
  | .bus b => b.apply i
  | .resp c => { i with respValid := true, respCollision := c }
  | .tick => { i with tick := true }
  | .draw n => { i with boDraw := n }
  | .wait => i
  | .rst => { i with rst := true }

/-- Inputs not named by an item are 0 in that cycle (R84). R84 limits bus, resp and tick items to one a line and is
silent on two `draw` items: the model accepts such a line and the last draw is the one presented (DESIGN CHOICE, log
entry 10). Items of different kinds set different inputs, so no other order among the items of a line shows. -/
def Line.inputs (l : Line) : Inputs := l.foldl Item.apply Inputs.idle

/-- At most one bus item, one `resp` item and one `tick` item in a line (R84). -/
def Line.wf (l : Line) : Bool :=
  l.countP (fun x => match x with | .bus _ => true | _ => false) ≤ 1
    && l.countP (fun x => match x with | .resp _ => true | _ => false) ≤ 1
    && l.countP (fun x => match x with | .tick => true | _ => false) ≤ 1

/-- The line of one register write. -/
def Line.wr (r : Reg) (imm : Word) : Line := [.bus (.write r imm)]

/-- `bits "s"` (R85): DATA_LEN, then every DATA word. -/
def bitsLines (p : Params) (s : List Bool) : List Line :=
  Line.wr .dataLen ((pack s).len.setWidth 32)
    :: (List.range p.dw).map fun j => Line.wr (.data j) (hostWord (pack s).bits j)

/-- `key K` (R85). -/
def keyLines (k : BitVec 64) : List Line :=
  [Line.wr .cfgKeyLo (k.extractLsb' 0 32), Line.wr .cfgKeyHi (k.extractLsb' 32 32)]

/-- `config ...` (R85): eight cycles. -/
def configLines (a : ConfigArgs) : List Line :=
  [Line.wr .cfgCtrl (0#30 ++ BitVec.ofBool a.bo.bit ++ BitVec.ofBool a.mode.bit),
   Line.wr .cfgWin a.win, Line.wr .cfgTimeout a.timeout, Line.wr .cfgMaxRetry a.maxretry,
   Line.wr .cfgSlot a.slot]
  ++ keyLines a.key ++ [[.bus (.command (encode .configure))]]

/-- The lines a statement stands for, one a cycle (R85). -/
def Stmt.lines (p : Params) : Stmt → List Line
  | .line items => [items]
  | .bits s => bitsLines p s
  | .key k => keyLines k
  | .config a => configLines a
  | .ticks n => List.replicate n [.tick]
  | .clrflags => [Line.wr .status 0xF00]

/-- The inputs of a whole program, one entry a cycle. -/
def programInputs (p : Params) (prog : List Stmt) : List Inputs :=
  prog.flatMap fun st => (st.lines p).map Line.inputs

/-! ### Reading the text of a line -/

/-- The text before a comment, which `--` introduces (R84). -/
def stripComment : List Char → List Char
  | '-' :: '-' :: _ => []
  | c :: cs => c :: stripComment cs
  | [] => []

/-- The pieces between separators, empty pieces left out. -/
def splitChars (sep : Char → Bool) (cs : List Char) : List (List Char) :=
  (cs.foldr (fun c acc =>
    match acc with
    | [] => if sep c then [[]] else [[c]]
    | p :: ps => if sep c then [] :: p :: ps else (c :: p) :: ps) [[]]).filter fun p => !p.isEmpty

/-- The words of an item: blanks and commas separate them. -/
def wordsOf (cs : List Char) : List (List Char) := splitChars (fun c => c == ' ' || c == ',') cs

/-- The value of a digit below 16. -/
def digitOf (c : Char) : Option Nat :=
  let n := c.toNat
  if 48 ≤ n ∧ n ≤ 57 then some (n - 48)
  else if 97 ≤ n ∧ n ≤ 102 then some (n - 87)
  else if 65 ≤ n ∧ n ≤ 70 then some (n - 55)
  else none

/-- A numeral in a base; `_` separates digits and counts for nothing (R84). -/
def numeralIn (radix : Nat) (cs : List Char) : Option Nat :=
  match cs.filter (· != '_') with
  | [] => none
  | ds => ds.foldl (fun acc c =>
      match acc, digitOf c with
      | some v, some d => if d < radix then some (v * radix + d) else none
      | _, _ => none) (some 0)

/-- `imm` and `arg`: decimal, or hexadecimal with 0x (R84). -/
def numberOf : List Char → Option Nat
  | '0' :: 'x' :: cs => numeralIn 16 cs
  | cs => numeralIn 10 cs

/-- A number that fits a width. -/
def fieldOf (n : Nat) (cs : List Char) : Option (BitVec n) :=
  match numberOf cs with
  | some v => if v < 2 ^ n then some (BitVec.ofNat n v) else none
  | none => none

/-- A character in lower case; mnemonics are case-insensitive (R84). -/
def lowerChar (c : Char) : Char := if 65 ≤ c.toNat ∧ c.toNat ≤ 90 then Char.ofNat (c.toNat + 32) else c

/-- The names of R20, with DATA[j] and RESULT[j] spelled DATAj and RESULTj (R84). -/
def regNames : List (String × Reg) :=
  [("CMD", .cmd), ("STATUS", .status), ("PARAM", .param), ("STATE", .state), ("BASE", .base), ("NEXT", .next),
   ("TXPTR", .txptr), ("TMR", .tmr), ("TXH", .txh), ("COLL", .coll), ("BOCNT", .bocnt)]
  ++ [("CNT_TXOK", .cntTxok), ("CNT_COLL", .cntColl), ("CNT_ABORT", .cntAbort), ("CNT_INVACK", .cntInvAck),
   ("CNT_TOUT", .cntTout)]
  ++ [("CFG_CTRL", .cfgCtrl), ("CFG_WIN", .cfgWin), ("CFG_TIMEOUT", .cfgTimeout), ("CFG_MAXRETRY", .cfgMaxRetry),
   ("CFG_SLOT", .cfgSlot), ("CFG_KEY_LO", .cfgKeyLo), ("CFG_KEY_HI", .cfgKeyHi)]
  ++ [("ACT_CTRL", .actCtrl), ("ACT_WIN", .actWin), ("ACT_TIMEOUT", .actTimeout), ("ACT_MAXRETRY", .actMaxRetry),
   ("ACT_SLOT", .actSlot), ("ACT_KEY_LO", .actKeyLo), ("ACT_KEY_HI", .actKeyHi)]
  ++ [("DATA_LEN", .dataLen), ("RESULT_LEN", .resultLen)]

/-- The register a name stands for, in an instance that has it (R20, R84). -/
def regOf (p : Params) (cs : List Char) : Option Reg :=
  match regNames.find? (fun e => e.1.toList == cs) with
  | some e => some e.2
  | none =>
    let r := match cs with
      | 'D' :: 'A' :: 'T' :: 'A' :: j => (numeralIn 10 j).map Reg.data
      | 'R' :: 'E' :: 'S' :: 'U' :: 'L' :: 'T' :: j => (numeralIn 10 j).map Reg.result
      | _ => none
    r.filter (Reg.exists p)

/-- `MNEMONIC [arg]` of a `cmd` item as a command; only ACK takes an argument (R79, R84, R86). -/
def commandOfWords : List (List Char) → Option Instr
  | [] => none
  | m :: args =>
    let name := m.map lowerChar
    match args with
    | [] =>
      if name = "nop".toList then some .nop
      else if name = "encode".toList then some .encode
      else if name = "verify".toList then some .verify
      else if name = "send".toList then some .send
      else if name = "timeout".toList then some .timeout
      else if name = "configure".toList then some .configure
      else if name = "teardown".toList then some .teardown
      else none
    | [a] => if name = "ack".toList then (fieldOf 16 a).map Instr.ack else none
    | _ => none

/-- The `-> value` note a read may carry says what the rules give and is no part of the cycle (R84). -/
def dropNote (ws : List (List Char)) : List (List Char) := ws.takeWhile (fun w => w != "->".toList)

/-- One item (R84). -/
def itemOf (p : Params) (cs : List Char) : Option Item :=
  match dropNote (wordsOf cs) with
  | [] => none
  | kw :: args =>
    if kw = "wr".toList then
      match args with
      | [('@' :: off), imm] => do return .bus (.writeAt (← fieldOf 12 off) (← fieldOf 32 imm))
      | [r, imm] => do return .bus (.write (← regOf p r) (← fieldOf 32 imm))
      | _ => none
    else if kw = "rd".toList then
      match args with
      | [('@' :: off)] => do return .bus (.readAt (← fieldOf 12 off))
      | [r] => do return .bus (.read (← regOf p r))
      | _ => none
    else if kw = "rd.b".toList then
      match args with
      | [r] => do return .bus (.readByte (← regOf p r))
      | _ => none
    else if kw = "cmd".toList then do return .bus (.command (encode (← commandOfWords args)))
    else if kw = "resp".toList then
      if args = ["ok".toList] then some (.resp false)
      else if args = ["coll".toList] then some (.resp true)
      else none
    else if kw = "draw".toList then
      match args with
      | [n] => do return .draw (← fieldOf 10 n)
      | _ => none
    else if args ≠ [] then none
    else if kw = "tick".toList then some .tick
    else if kw = "wait".toList then some .wait
    else if kw = "rst".toList then some .rst
    else none

/-- The characters after an opening quote: 0 and 1 only, then the closing quote as the last character. -/
def bitsTail : List Char → Option (List Bool)
  | ['"'] => some []
  | '0' :: cs => (bitsTail cs).map (false :: ·)
  | '1' :: cs => (bitsTail cs).map (true :: ·)
  | _ => none

/-- A quoted bit string (R11, R85). R11 and R85 do not say how other quoted text is read: the model rejects an inner
quote, any character but 0 and 1, and anything after the closing quote (DESIGN CHOICE, log entry 10). -/
def bitsOf : List Char → Option (List Bool)
  | '"' :: cs => bitsTail cs
  | _ => none

/-- One `name=value` argument of `config` (R85). Of repeated `=` signs one counts, and blanks around it are not taken
(DESIGN CHOICE, log entry 10). -/
def configArg (a : ConfigArgs) (cs : List Char) : Option ConfigArgs :=
  match splitChars (· == '=') cs with
  | [n, v] =>
    if n = "mode".toList then
      if v = "crc".toList then some { a with mode := .crc }
      else if v = "parity".toList then some { a with mode := .parity }
      else none
    else if n = "bo".toList then
      if v = "none".toList then some { a with bo := .immediate }
      else if v = "beb".toList then some { a with bo := .beb }
      else none
    else if n = "win".toList then (fieldOf 32 v).map fun x => { a with win := x }
    else if n = "timeout".toList then (fieldOf 32 v).map fun x => { a with timeout := x }
    else if n = "maxretry".toList then (fieldOf 32 v).map fun x => { a with maxretry := x }
    else if n = "slot".toList then (fieldOf 32 v).map fun x => { a with slot := x }
    else if n = "key".toList then (fieldOf 64 v).map fun x => { a with key := x }
    else none
  | _ => none

/-- The arguments of `config`, in any order. R85 is silent on an argument named twice: the model accepts it and the last
value counts (DESIGN CHOICE, log entry 10). -/
def configArgsOf : List (List Char) → ConfigArgs → Option ConfigArgs
  | [], a => some a
  | w :: ws, a => (configArg a w).bind (configArgsOf ws)

/-- The items of a plain line; the line must be well formed (R84). R84 separates items by an `&` between blanks and is
silent on other uses of it: the model takes an `&` with no blanks around it as the same separator, and drops the empty
pieces that a doubled, leading or trailing `&` leaves (DESIGN CHOICE, log entry 10). -/
def plainLineOf (p : Params) (cs : List Char) : Option Stmt :=
  match (splitChars (· == '&') cs).mapM (itemOf p) with
  | some items => if Line.wf items then some (.line items) else none
  | none => none

/-- A line of a host program as a statement: a pseudo-instruction, or plain items (R84, R85; log entry 10). -/
def stmtOf (p : Params) (text : String) : Option Stmt :=
  let cs := stripComment text.toList
  match wordsOf cs with
  | [] => some (.line [])
  | kw :: args =>
    if kw = "bits".toList then
      match args with
      | [s] => (bitsOf s).map Stmt.bits
      | _ => none
    else if kw = "key".toList then
      match args with
      | [k] => (fieldOf 64 k).map Stmt.key
      | _ => none
    else if kw = "config".toList then (configArgsOf args {}).map Stmt.config
    else if kw = "ticks".toList then
      match args with
      | [n] => (numberOf n).map Stmt.ticks
      | _ => none
    else if kw = "clrflags".toList then if args = [] then some .clrflags else none
    else plainLineOf p cs

end Sys2Proof.Machine
end

