-- ==== Sys2Proof/Machine/Environment.lean ====
section
/-! DEFINITION. The environment of R130 to R137 as functions: the channel's outcome of an attempt, and the receiver. None of it is part of DLC (R7; log entry 8). -/

namespace Sys2Proof.Machine

open Sys2Proof

/-- What the TX port carries to the channel: a sequence number and a codeword (R91, R131). -/
structure Frame where
  seq : BitVec 16
  cw : BitString
  deriving DecidableEq, Repr

/-- The frame presented at the end of a cycle; the channel may sample it only while tx_valid = 1 (R50). -/
def presentedFrame (s : State) : Option Frame :=
  if s.cs = .transmitting then some ⟨s.txh.seq, s.txh.frame⟩ else none

/-- The channel's outcome of one attempt (R131); a corruption names the codeword bits it flips (R134). -/
inductive ChannelEvent where
  | delivered
  | lost
  | corrupted (flips : Bits)
  | collision
  deriving DecidableEq, Repr

/-- The collision bit the channel answers with (R131). -/
def ChannelEvent.respCollision : ChannelEvent → Bool
  | .collision => true
  | .delivered => false
  | .lost => false
  | .corrupted _ => false

/-- R134: a corruption flips at least one bit of the codeword, and no bit outside it. -/
def ChannelEvent.allowed (f : Frame) : ChannelEvent → Bool
  | .corrupted flips => flips != 0 && flips >>> f.cw.len.toNat == 0
  | _ => true

/-- What the receiver is given (R131): the frame, the frame with flipped codeword bits, or nothing. The sequence
number and the length are never changed (R134). -/
def ChannelEvent.deliver (f : Frame) : ChannelEvent → Option Frame
  | .delivered => some f
  | .corrupted flips => some { f with cw := { f.cw with bits := f.cw.bits ^^^ flips } }
  | .lost => none
  | .collision => none

/-- The inputs with the channel's answer to the presented attempt added (R51). -/
def Inputs.withAnswer (i : Inputs) (e : ChannelEvent) : Inputs :=
  { i with respValid := true, respCollision := e.respCollision }

/-- R155: the channel may answer in a cycle only when tx_valid = 1 at the end of the cycle before. -/
def answerAllowed (s : State) (i : Inputs) : Bool := !i.respValid || (txPort s).valid

/-- What the receiver does with a frame (R136, R137). -/
inductive ReceiverAction where
  /-- Drop, no ACK. -/
  | drop
  /-- Drop and re-emit Ack(expected - 1) (R137). -/
  | dropReAck (ack : BitVec 16)
  /-- Hand the payload to the application and emit Ack(seq). -/
  | deliver (payload : BitString) (ack : BitVec 16)
  deriving DecidableEq, Repr

/-- The payload of a codeword: the codeword without its r redundancy bits (R136). -/
def payloadOf (c : ConfigRegs) (cw : BitString) : BitString :=
  ⟨BitVec.ofNat 16 (cw.len.toNat - redundancy c), cw.bits >>> redundancy c⟩

/-- `on_frame(seq, n, cw)` (R136) under the receiver's code `c`, with the receiver's free choice to re-emit an ACK for
an out-of-order frame (R137, I1): its action, and `expected` after it. -/
def onFrame (c : ConfigRegs) (reAck : Bool) (expected : BitVec 16) (f : Frame) : ReceiverAction × BitVec 16 :=
  if verifyWith c f.cw = false then (.drop, expected)
  else if f.seq = expected then (.deliver (payloadOf c f.cw) f.seq, expected + 1)
  else (if reAck then .dropReAck (expected - 1) else .drop, expected)

/-- The acknowledgment number an action gives the host to relay, if any (R136 to R138). -/
def ReceiverAction.ackNumber : ReceiverAction → Option (BitVec 16)
  | .drop => none
  | .dropReAck a => some a
  | .deliver _ a => some a

/-- The receiver's `expected` at the start of a session (R135). -/
def receiverStart (p : Params) : BitVec 16 := BitVec.ofNat 16 p.seqInit

end Sys2Proof.Machine
end

