-- ==== Sys2Proof/Safety.lean ====
section
/-! DEFINITION. The terms claims are made in: the invariants of R40 to R45 and what an inductive proof of them needs besides, quiet cycles, and the polynomial a packed value stands for. -/

namespace Sys2Proof.Safety

open Sys2Proof Sys2Proof.Machine

/-- R40: BASE <= TXPTR <= NEXT <= SEQ_LIMIT and NEXT - BASE <= ACT_WIN; unconfigured, all three are SEQ_INIT. -/
abbrev WindowInvariant (s : State) : Prop :=
  s.base.toNat ≤ s.txptr.toNat ∧ s.txptr.toNat ≤ s.next.toNat ∧ s.next.toNat ≤ s.params.seqLimit
    ∧ s.next.toNat - s.base.toNat ≤ s.act.win.toNat
    ∧ (s.cfgValid = false →
        s.base.toNat = s.params.seqInit ∧ s.txptr.toNat = s.params.seqInit ∧ s.next.toNat = s.params.seqInit)

/-- R41: the keys of BUF are exactly the sequence numbers in [BASE, NEXT), here in rising order. -/
abbrev BufferInvariant (s : State) : Prop :=
  s.buf.map Prod.fst = List.range' s.base.toNat (s.next.toNat - s.base.toNat)

/-- R42: TMR_RUN = 1 iff TMR != 0, and a running timer has outstanding frames and an enabled reload value. -/
abbrev TimerInvariant (s : State) : Prop :=
  (s.tmrRun = true ↔ s.tmr ≠ 0) ∧ (s.tmrRun = true → s.next ≠ s.base ∧ s.act.timeout ≠ 0)

/-- R43. -/
abbrev CsmaInvariant (s : State) : Prop :=
  (s.cs ≠ .idle ↔ s.txh.valid = true)
    ∧ (s.bocnt ≠ 0 → s.cs = .backoff ∧ s.act.boMode = .beb)
    ∧ (s.cs ≠ .idle → s.act.maxRetry ≠ 0 → s.coll.toNat ≤ s.act.maxRetry.toNat)
    ∧ ¬(s.cs = .backoff ∧ s.bocnt = 0)

/-- R44: sequence numbers below 2^SEQ_W and at most SEQ_LIMIT, a frame's at most SEQ_LIMIT - 1; lengths at most BMAX;
payloads and TXH_CW well formed for their lengths. -/
abbrev WidthInvariant (s : State) : Prop :=
  (s.base.toNat < 2 ^ s.params.seqW ∧ s.next.toNat < 2 ^ s.params.seqW ∧ s.txptr.toNat < 2 ^ s.params.seqW
      ∧ s.txh.seq.toNat < 2 ^ s.params.seqW ∧ ∀ e ∈ s.buf, e.1 < 2 ^ s.params.seqW)
    ∧ (s.base.toNat ≤ s.params.seqLimit ∧ s.next.toNat ≤ s.params.seqLimit ∧ s.txptr.toNat ≤ s.params.seqLimit)
    ∧ (s.txh.seq.toNat ≤ s.params.seqLimit - 1 ∧ ∀ e ∈ s.buf, e.1 ≤ s.params.seqLimit - 1)
    ∧ s.result.len.toNat ≤ s.params.bmax
    ∧ wellFormed s.params.bmax s.txh.frame = true
    ∧ ∀ e ∈ s.buf, wellFormed s.params.bmax e.2 = true

/-- R45: while CFG_VALID = 0, BUF is empty, CS is Idle, the timer is stopped at 0, every ACT_ register is 0 and
STATE.OCC is 0. -/
abbrev ConfigInvariant (s : State) : Prop :=
  s.cfgValid = false →
    s.buf = [] ∧ s.cs = .idle ∧ s.tmrRun = false ∧ s.tmr = 0 ∧ s.act = ConfigRegs.zero ∧ occ s = 0

/-- The invariants of R40 to R45, with the further facts that make them inductive. -/
structure Invariants (s : State) : Prop where
  /-- The parameters are in the ranges of R8. -/
  legal : s.params.legal = true
  window : WindowInvariant s
  buffer : BufferInvariant s
  timer : TimerInvariant s
  csma : CsmaInvariant s
  width : WidthInvariant s
  config : ConfigInvariant s
  /-- An installed configuration passed CONFIGURE's checks (R127). -/
  active : s.cfgValid = true →
    1 ≤ s.act.win.toNat ∧ s.act.win.toNat ≤ s.params.wmax ∧ (s.act.mode = .crc → keyValid s.act.key = true)
  /-- A buffered payload passed SEND's capacity check (R90, R118). -/
  payloadsFit : ∀ e ∈ s.buf, e.2.len.toNat + redundancy s.act ≤ s.params.bmax
  /-- TXH reads 0 whenever TXH_VALID = 0 (R27). -/
  holdEmpty : s.txh.valid = false → s.txh = TxHold.none
  /-- The held frame is one the sender numbered, and while it is outstanding its codeword is that of its buffered
  payload (R47, R111). -/
  holdFromBuffer : s.txh.valid = true →
    s.txh.seq.toNat < s.next.toNat
      ∧ (Buffer.get s.buf s.txh.seq.toNat).all (fun p => encodeWith s.act p == s.txh.frame) = true
  /-- The internal sub-step left no frame unstarted while the unit is idle (R151). -/
  started : ¬(s.cs = .idle ∧ s.cfgValid = true ∧ s.txptr.toNat < s.next.toNat)
  /-- DATA is BMAX bits wide (R15). -/
  dataWidth : s.data.bits >>> s.params.bmax = 0
  /-- RESULT holds a codeword (R96), within BMAX bits (R15). -/
  resultWellFormed : wellFormed s.params.bmax s.result = true

/-- A cycle with no reset, bus access, response or tick (R151). -/
def quiet (i : Inputs) : Prop := i.rst = false ∧ i.busValid = false ∧ i.respValid = false ∧ i.tick = false

/-- The cycle presents a bus access that R65 does not refuse, to register r. -/
def accesses (p : Params) (i : Inputs) (write : Bool) (r : Reg) : Prop :=
  i.rst = false ∧ i.busValid = true ∧ i.busWrite = write ∧ busTarget p write i.busAddr i.busSize = .ok r

/-- The cycle runs a command: an accepted write to CMD of a word that decodes to it (R21, R125). -/
def runsCommand (p : Params) (i : Inputs) (c : Instr) : Prop :=
  accesses p i true .cmd ∧ decodeWord i.busWdata = c

/-- The bits of a register that a storage write sets; the rest are reserved and read 0 (R64, R66). -/
def storedBits : Reg → Word
  | .cfgCtrl => 0x3
  | .cfgWin => 0xFF
  | .cfgMaxRetry => 0xFFFF
  | .cfgSlot => 0xFFFF
  | .dataLen => 0xFFFF
  | _ => 0xFFFFFFFF

/-- Seven words are what the registers of one configuration read as, CTRL, WIN, TIMEOUT, MAXRETRY, SLOT, KEY_LO and
KEY_HI in that order (R31 to R37). -/
def readsConfig (c : ConfigRegs) (ctrl win timeout maxRetry slot keyLo keyHi : Word) : Prop :=
  ctrl.getLsbD 0 = decide (c.mode = .parity) ∧ ctrl.getLsbD 1 = decide (c.boMode = .beb) ∧ ctrl.toNat < 4
    ∧ win.toNat = c.win.toNat ∧ timeout = c.timeout ∧ maxRetry.toNat = c.maxRetry.toNat
    ∧ slot.toNat = c.slot.toNat ∧ keyHi.toNat * 2 ^ 32 + keyLo.toNat = c.key.toNat

/-- A cycle with a channel response and no other input. -/
def respOnly (collision : Bool) (draw : BitVec 10) : Inputs :=
  { Inputs.idle with respValid := true, respCollision := collision, boDraw := draw }

/-- A cycle with a tick and no other input. -/
def tickOnly : Inputs := { Inputs.idle with tick := true }

/-- `n` cycles, stopping at the first stop. -/
def runSteps : Nat → State → Host.Outcome State Fault Refusal
  | 0, s => .next s
  | n + 1, s => andThen (step s) (runSteps n)

/-- The polynomial over GF(2) that the low n bits of a packed value stand for: bit i is the coefficient of x^i (R13). -/
noncomputable def gf2Poly (n : Nat) (v : Nat) : Polynomial (ZMod 2) :=
  ∑ i ∈ Finset.range n, if v.testBit i then Polynomial.X ^ i else 0

/-- The remainder of long division written on the characters of a bit string, first character highest, as the source
writes it: while the dividend is longer than the key less one, a leading 1 is cancelled by the key and the leading
character dropped (E1's division; the source's "modulo-2 polynomial division"). `key` is the key's characters without
their leading 1. -/
def divideChars (key : List Bool) : Nat → List Bool → List Bool
  | 0, s => s
  | _ + 1, [] => []
  | k + 1, c :: s =>
    divideChars key k (if c then List.zipWith xor s (key ++ List.replicate (s.length - key.length) false) else s)

end Sys2Proof.Safety
end

