-- ==== Sys2Proof/Certificates/Slice0/Obligations.lean ====
section
/-! DEFINITION. The statements for the provers, from the numbered rules of the spec. -/

open Sys2Proof Sys2Proof.Machine Sys2Proof.Safety

/-! ### Encoding -/

/-- R86: the word of each mnemonic, and what each of those words decodes to. -/
def Obligations.MnemonicsEncodeAsTheSpecSays : Prop :=
  encode .nop = 0x00000000 ∧ encode .encode = 0x00000001 ∧ encode .verify = 0x00000002
    ∧ encode .send = 0x00000003 ∧ encode .timeout = 0x00000005 ∧ encode .configure = 0x00000006
    ∧ encode .teardown = 0x00000007
    ∧ (∀ n : BitVec 16, encode (.ack n) = (n.setWidth 32 <<< 16) ||| 0x00000004)
    ∧ encode (.ack 2) = 0x00020004 ∧ encode (.ack 0xFFFF) = 0xFFFF0004
    ∧ decodeWord 0x00000000 = .nop ∧ decodeWord 0x00000001 = .encode ∧ decodeWord 0x00000002 = .verify
    ∧ decodeWord 0x00000003 = .send ∧ decodeWord 0x00020004 = .ack 2 ∧ decodeWord 0x00000005 = .timeout
    ∧ decodeWord 0x00000006 = .configure ∧ decodeWord 0x00000007 = .teardown

/-- Decoding the bytes of a well-formed command gives it back, ACK with every number (R78, R81). The illegal terms and
the order of the bytes are the model's choice (log entry 9). -/
def Obligations.DecodeInvertsEncode : Prop :=
  ∀ i : Instr, i.wf = true → decode (encodeBytes i) = .ok i

/-- Every word, legal or not, is the encoding of exactly the command it decodes to, and every list of bytes that is not
one word is rejected. That the illegal row keeps its word, so that this holds of illegal words too, and that the bytes
of a word are its lanes, is the model's choice (log entry 9); R81 gives which words decode to a command. -/
def Obligations.EncodeInvertsDecode : Prop :=
  (∀ w : Word, encode (decodeWord w) = w ∧ (decodeWord w).wf = true)
    ∧ (∀ bs : List Byte, bs.length ≠ 4 → decode bs = .error (.notOneWord bs.length))
    ∧ ∀ bs : List Byte, bs.length = 4 → ∃ i, decode bs = .ok i ∧ encodeBytes i = bs

/-- R81: a word is legal exactly when one row of R78 selects it, that row names the command it decodes to, and a word
that is not legal decodes to no command. -/
def Obligations.LegalWordIsOfExactlyOneRow : Prop :=
  ∀ w : Word,
    (legalWord w = true ↔ (opcodeMap.filter fun r => r.selects w).length = 1)
      ∧ (legalWord w = true →
          (opcodeMap.filter fun r => r.selects w).map OpRow.mnemonic = [(decodeWord w).mnemonic])
      ∧ (legalWord w = false → decodeWord w = .illegal w)

/-! ### The step and reset -/

/-- A step runs the command its cycle presents: exec of the decoded word on the state with the cycle's inputs taken
and the bus outputs 0, then the response, tick and internal sub-steps of the same cycle (R124, R125). The host's way
of presenting a command, `withFetchWord`, is such a cycle with no other input. -/
def Obligations.StepRunsTheDecodedCommand : Prop :=
  (∀ (s : State) (i : Inputs) (rest : List Inputs), s.inputs = i :: rest → accesses s.params i true .cmd →
      step s = andThen (exec (decodeWord i.busWdata) { s with inputs := rest, out := BusOut.zero })
        fun s1 => internal (tickSubstep i (respSubstep i s1)))
    ∧ (∀ (s : State) (c : Instr), c.wf = true →
        step (s.withCommandWord (encode c)) = andThen (exec c { s with out := BusOut.zero }) internal)
    ∧ ∀ (s : State) (w : Nat), w < 2 ^ 32 →
        step (s.withFetchWord 32 w) =
          andThen (exec (decodeWord (BitVec.ofNat 32 w)) { s with out := BusOut.zero }) internal

/-- R152: a cycle with rst = 1 puts every element into its reset value and ignores every other input. -/
def Obligations.ResetCycleRestoresEveryElement : Prop :=
  ∀ (s : State) (i : Inputs) (rest : List Inputs), s.params.legal = true → s.inputs = i :: rest → i.rst = true →
    ∃ t, step s = .next t
      ∧ readReg t .status = 0 ∧ readReg t .state = 0 ∧ t.last = .ok
      ∧ t.cfg = ConfigRegs.zero ∧ t.act = ConfigRegs.zero ∧ t.cfgValid = false
      ∧ t.data = BitString.empty ∧ t.result = BitString.empty
      ∧ t.base.toNat = s.params.seqInit ∧ t.next.toNat = s.params.seqInit ∧ t.txptr.toNat = s.params.seqInit
      ∧ t.buf = [] ∧ t.tmr = 0 ∧ t.tmrRun = false
      ∧ t.cs = .idle ∧ t.txh = TxHold.none ∧ t.coll = 0 ∧ t.bocnt = 0 ∧ t.counters = Counters.zero
      ∧ txPort t = ⟨false, 0, 0, 0⟩ ∧ t.out = ⟨0, false⟩ ∧ readReg t .param = readReg s .param

/-- Every state that holds after reset of a legal instance meets the invariants. -/
def Obligations.ResetStateMeetsTheInvariants : Prop :=
  Invariants State.reset ∧ ∀ p : Params, p.legal = true → Invariants (State.resetFor p)

/-- R40 to R45: every step keeps the invariants. -/
def Obligations.EveryStepKeepsTheInvariants : Prop :=
  ∀ s t : State, Invariants s → step s = .next t → Invariants t

/-- The block keeps running: no step from a state that meets the invariants stops (R143). -/
def Obligations.NoStepStopsUnderTheInvariants : Prop :=
  ∀ s : State, Invariants s → ∃ t, step s = .next t

/-- R151: a cycle with no inputs changes no state; only the list of inputs gets shorter, and the bus outputs are 0. -/
def Obligations.QuietCycleChangesNothing : Prop :=
  ∀ s : State, Invariants s → quiet s.currentInputs →
    step s = .next { s with inputs := s.inputs.tail, out := BusOut.zero }

/-- Each command completes in its own cycle (R125), and none writes DATA, a CFG_ register or a parameter (R8, R16, R37). -/
def Obligations.EveryCommandCompletesAndKeepsItsOperands : Prop :=
  ∀ (c : Instr) (s : State), ∃ t, exec c s = .next t
    ∧ t.data = s.data ∧ t.cfg = s.cfg ∧ t.params = s.params ∧ t.inputs = s.inputs ∧ t.out = s.out

/-- The parameters of an instance are fixed: no step changes them (R15). -/
def Obligations.NoStepChangesTheParameters : Prop :=
  ∀ s t : State, step s = .next t → t.params = s.params

/-! ### The checker -/

/-- R13: `polymod` is the remainder of V(x) by G(x), and with n <= r it is V itself. -/
def Obligations.PolymodIsThePolynomialRemainder : Prop :=
  ∀ (v : Bits) (n : Nat) (g : BitVec 64), n ≤ 1024 → v.toNat < 2 ^ n → 2 ≤ bitlen g.toNat →
    gf2Poly 1024 (polymod v n g).toNat = gf2Poly 1024 v.toNat % gf2Poly 64 g.toNat
      ∧ (polymod v n g).toNat < 2 ^ (bitlen g.toNat - 1)
      ∧ (n ≤ bitlen g.toNat - 1 → polymod v n g = v)

/-- R88 on the packed form is the source's division on the characters: codeword = payload ++ remainder of the payload
padded with r zero characters, by the key "1" ++ key. -/
def Obligations.CrcEncodeIsDivisionOfTheCharacters : Prop :=
  ∀ (payload key : List Bool), 1 ≤ key.length → key.length ≤ 63 → payload.length + key.length ≤ 1024 →
    crcEncode (BitVec.ofNat 64 (packValue (true :: key))) (pack payload)
      = pack (payload ++ divideChars key payload.length (payload ++ List.replicate key.length false))

/-- R60: the length is the number of characters, character s[i] is bit L-1-i, and no bit is set at or above L. -/
def Obligations.PackingPutsTheFirstCharacterHighest : Prop :=
  ∀ s : List Bool, s.length ≤ 1024 →
    (pack s).len.toNat = s.length
      ∧ (∀ (i : Nat) (h : i < s.length), (pack s).bits.getLsbD (s.length - 1 - i) = s[i])
      ∧ ∀ i, s.length ≤ i → (pack s).bits.getLsbD i = false

/-- R98: `verify(encode(L, V)) = 1` in both modes. -/
def Obligations.VerifyAcceptsEveryCodeword : Prop :=
  ∀ (c : ConfigRegs) (cap : Nat) (p : BitString), cap ≤ 1024 → wellFormed cap p = true →
    (c.mode = .crc → keyValid c.key = true) → p.len.toNat + redundancy c ≤ cap →
    verifyWith c (encodeWith c p) = true

/-- R99: in CRC mode with a valid key, flipping any single bit of a codeword gives a word `crc_verify` rejects. -/
def Obligations.CrcRejectsEverySingleBitFlip : Prop :=
  ∀ (g : BitVec 64) (cap : Nat) (p : BitString) (i : Nat), cap ≤ 1024 → wellFormed cap p = true → keyValid g = true →
    p.len.toNat + (bitlen g.toNat - 1) ≤ cap → i < (crcEncode g p).len.toNat →
    crcVerify g { crcEncode g p with bits := (crcEncode g p).bits ^^^ (1 <<< i) } = false

/-- R100: `parity_verify` rejects a codeword with an odd number of flipped bits and accepts one with an even number. -/
def Obligations.ParityDetectsExactlyTheOddFlips : Prop :=
  ∀ (cap : Nat) (p : BitString) (e : Bits), cap ≤ 1024 → wellFormed cap p = true → p.len.toNat + 1 ≤ cap →
    e >>> (parityEncode p).len.toNat = 0 →
    parityVerify { parityEncode p with bits := (parityEncode p).bits ^^^ e } = (popcount e % 2 == 0)

/-- R95: a key is valid exactly when its bit length is at least 2 and it is no power of two, that is, when it has at
least two terms; the empty key, the key 1 and every single-term key are invalid. -/
def Obligations.KeyIsValidExactlyWithTwoTerms : Prop :=
  ∀ g : BitVec 64,
    (keyValid g = true ↔ 2 ≤ bitlen g.toNat ∧ ¬∃ m, g.toNat = 2 ^ m)
      ∧ (keyValid g = true ↔ ∃ i j, i < j ∧ g.getLsbD i = true ∧ g.getLsbD j = true)

/-- ENCODE (R96): its errors in order, each with RESULT unchanged; the codeword in both modes; an empty payload gives
r zero bits. -/
def Obligations.EncodeWritesTheCodewordToResult : Prop :=
  decodeWord 0x00000001 = .encode ∧ ∀ s : State,
    (s.cfgValid = false → exec .encode s = .next { s with last := .notConfigured })
      ∧ (s.cfgValid = true → operandOk s = false → exec .encode s = .next { s with last := .malformedInput })
      ∧ (s.cfgValid = true → operandOk s = true → s.params.bmax < s.data.len.toNat + redundancy s.act →
          exec .encode s = .next { s with last := .malformedInput })
      ∧ (s.cfgValid = true → operandOk s = true → s.act.mode = .crc →
          s.data.len.toNat + (bitlen s.act.key.toNat - 1) ≤ s.params.bmax →
          exec .encode s = .next { s with
            last := .ok
            result := ⟨BitVec.ofNat 16 (s.data.len.toNat + (bitlen s.act.key.toNat - 1)),
              (s.data.bits <<< (bitlen s.act.key.toNat - 1)) |||
                polymod (s.data.bits <<< (bitlen s.act.key.toNat - 1))
                  (s.data.len.toNat + (bitlen s.act.key.toNat - 1)) s.act.key⟩ })
      ∧ (s.cfgValid = true → operandOk s = true → s.act.mode = .parity → s.data.len.toNat + 1 ≤ s.params.bmax →
          exec .encode s = .next { s with
            last := .ok
            result := ⟨BitVec.ofNat 16 (s.data.len.toNat + 1),
              (s.data.bits <<< 1) ||| BitVec.ofNat 1024 (popcount s.data.bits % 2)⟩ })
      ∧ (s.cfgValid = true → s.data = BitString.empty → redundancy s.act ≤ s.params.bmax →
          exec .encode s = .next { s with last := .ok, result := ⟨BitVec.ofNat 16 (redundancy s.act), 0⟩ })

/-- VERIFY (R97, R92 to R94): its errors in order, each with VERDICT 0; the verdict in both modes; a word shorter than
the redundancy is rejected with status OK, and the all-zero word of at least r bits is accepted. -/
def Obligations.VerifyWritesTheVerdict : Prop :=
  decodeWord 0x00000002 = .verify ∧ ∀ s : State,
    (s.cfgValid = false → exec .verify s = .next { s with verdict := false, last := .notConfigured })
      ∧ (s.cfgValid = true → operandOk s = false →
          exec .verify s = .next { s with verdict := false, last := .malformedInput })
      ∧ (s.cfgValid = true → operandOk s = true → s.data.len.toNat < redundancy s.act →
          exec .verify s = .next { s with verdict := false, last := .ok })
      ∧ (s.cfgValid = true → operandOk s = true → redundancy s.act ≤ s.data.len.toNat → s.act.mode = .crc →
          exec .verify s = .next { s with
            verdict := decide (polymod s.data.bits s.data.len.toNat s.act.key = 0), last := .ok })
      ∧ (s.cfgValid = true → operandOk s = true → redundancy s.act ≤ s.data.len.toNat → s.act.mode = .parity →
          exec .verify s = .next { s with verdict := decide (popcount s.data.bits % 2 = 0), last := .ok })
      ∧ (s.cfgValid = true → operandOk s = true → s.data.bits = 0 → redundancy s.act ≤ s.data.len.toNat →
          exec .verify s = .next { s with verdict := true, last := .ok })

/-! ### The Go-Back-N sender -/

/-- SEND (R118): with a configuration, a payload that fits, room in the window and a number left, the payload enters
BUF under NEXT, every other entry stays, NEXT moves by one, and only LAST besides changes. -/
def Obligations.SendQueuesThePayloadUnderNext : Prop :=
  ∀ s : State, Invariants s → s.cfgValid = true → operandOk s = true →
    s.data.len.toNat + redundancy s.act ≤ s.params.bmax →
    s.next.toNat - s.base.toNat < s.act.win.toNat → s.next.toNat ≠ s.params.seqLimit →
    ∃ b, exec .send s = .next { s with buf := b, next := s.next + 1, last := .ok }
      ∧ (s.next + 1).toNat = s.next.toNat + 1
      ∧ ∀ q, Buffer.get b q = if q = s.next.toNat then some s.data else Buffer.get s.buf q

/-- SEND's errors in the order of R142 (R118): each changes LAST and nothing else. -/
def Obligations.SendReportsTheFirstErrorOnly : Prop :=
  ∀ s : State,
    (s.cfgValid = false → exec .send s = .next { s with last := .notConfigured })
      ∧ (s.cfgValid = true → (operandOk s = false ∨ s.params.bmax < s.data.len.toNat + redundancy s.act) →
          exec .send s = .next { s with last := .malformedInput })
      ∧ (s.cfgValid = true → operandOk s = true → s.data.len.toNat + redundancy s.act ≤ s.params.bmax →
          s.act.win.toNat ≤ s.next.toNat - s.base.toNat → exec .send s = .next { s with last := .windowFull })
      ∧ (s.cfgValid = true → operandOk s = true → s.data.len.toNat + redundancy s.act ≤ s.params.bmax →
          s.next.toNat - s.base.toNat < s.act.win.toNat → s.next.toNat = s.params.seqLimit →
          exec .send s = .next { s with last := .seqExhausted })

/-- ACK inside [BASE, NEXT) (R119): every buffered number up to the ACK leaves, the rest stay, BASE is the next
number, TXPTR is not below it, and the timer restarts exactly when frames are left and it is enabled. -/
def Obligations.AckInsideTheWindowIsCumulative : Prop :=
  ∀ (s : State) (a : BitVec 16), Invariants s → s.base.toNat ≤ a.toNat → a.toNat < s.next.toNat →
    ∃ b, exec (.ack a) s = .next { s with
        buf := b
        base := a + 1
        txptr := if s.txptr.toNat ≤ a.toNat then a + 1 else s.txptr
        tmr := if a + 1 = s.next then 0 else s.act.timeout
        tmrRun := decide (a + 1 ≠ s.next ∧ s.act.timeout ≠ 0)
        last := .ok }
      ∧ (a + 1).toNat = a.toNat + 1
      ∧ ∀ q, Buffer.get b q = if q ≤ a.toNat then none else Buffer.get s.buf q

/-- ACK outside [BASE, NEXT) (R119), an empty window among them: InvalidAck, F_INVACK and CNT_INVACK, and the window
unchanged. -/
def Obligations.AckOutsideTheWindowIsReported : Prop :=
  ∀ (s : State) (a : BitVec 16), (a.toNat < s.base.toNat ∨ s.next.toNat ≤ a.toNat) →
    exec (.ack a) s = .next { s with
      flags := { s.flags with invAck := true }
      counters := { s.counters with invAck := s.counters.invAck + 1 }
      last := .invalidAck }

/-- TIMEOUT (R120, R117): with frames outstanding it rewinds TXPTR to BASE, stops the timer, counts and flags; with
none it only writes LAST. -/
def Obligations.TimeoutRewindsTheTransmitPointer : Prop :=
  decodeWord 0x00000005 = .timeout ∧ ∀ s : State,
    (s.next = s.base → exec .timeout s = .next { s with last := .ok })
      ∧ (s.next ≠ s.base → exec .timeout s = .next { s with
          txptr := s.base, tmr := 0, tmrRun := false
          counters := { s.counters with tout := s.counters.tout + 1 }
          flags := { s.flags with tout := true }
          last := .ok })

/-- R116: a running timer at n+1 counts down by one in each of n tick cycles with no timeout, and the next tick is the
timeout. -/
def Obligations.TimerExpiresAtTheLastTick : Prop :=
  ∀ (s : State) (n : Nat) (rest : List Inputs), Invariants s → s.tmrRun = true → s.tmr.toNat = n + 1 →
    s.inputs = List.replicate (n + 1) tickOnly ++ rest →
    (∀ k, k ≤ n → ∃ t, runSteps k s = .next t ∧ t.tmr.toNat = n + 1 - k ∧ t.tmrRun = true
        ∧ t.counters.tout = s.counters.tout ∧ t.flags.tout = s.flags.tout)
      ∧ ∃ t, runSteps (n + 1) s = .next t ∧ t.tmr = 0 ∧ t.tmrRun = false
        ∧ t.counters.tout = s.counters.tout + 1 ∧ t.flags.tout = true ∧ t.base = s.base ∧ t.next = s.next
        ∧ t.buf = s.buf

/-- R121 (a): an ACK command and an expiring tick in one cycle resolve as "ACK wins": with the window emptied there is
no timeout; with frames left the tick counts the reloaded timer, and expires it only when it was reloaded with 1. -/
def Obligations.AckWinsOverExpiryInOneCycle : Prop :=
  ∀ (s : State) (a : BitVec 16) (rest : List Inputs), Invariants s → s.tmrRun = true → s.tmr = 1 →
    s.base.toNat ≤ a.toNat → a.toNat < s.next.toNat →
    s.inputs = { Inputs.commandWrite (encode (.ack a)) with tick := true } :: rest →
    ∃ t, step s = .next t ∧ t.base = a + 1 ∧ t.last = .ok
      ∧ (a + 1 = s.next → t.tmrRun = false ∧ t.counters.tout = s.counters.tout ∧ t.flags.tout = s.flags.tout)
      ∧ (a + 1 ≠ s.next → s.act.timeout ≠ 1 → t.tmrRun = true ∧ t.tmr = s.act.timeout - 1
          ∧ t.counters.tout = s.counters.tout ∧ t.flags.tout = s.flags.tout)
      ∧ (a + 1 ≠ s.next → s.act.timeout = 1 → t.tmrRun = false
          ∧ t.counters.tout = s.counters.tout + 1 ∧ t.flags.tout = true)

/-- R123 (b): after an effective timeout, while every attempt is answered with no collision, the attempts started carry
exactly BASE, BASE + 1, ..., NEXT - 1 in that order, each with the codeword of its buffered payload. A frame on the TX
port at the timeout is answered first (R117): `held` is 1 then, and 0 where the unit is idle. -/
def Obligations.TimeoutResendsTheWindowInOrder : Prop :=
  ∀ (s : State) (held k : Nat) (rest : List Inputs), Invariants s →
    (s.cs = .idle ∧ held = 0 ∨ s.cs = .transmitting ∧ held = 1) → k < s.next.toNat - s.base.toNat →
    s.inputs = Inputs.commandWrite (encode .timeout) :: (List.replicate (held + k) (respOnly false 0) ++ rest) →
    ∃ t p, runSteps (held + k + 1) s = .next t ∧ (txPort t).valid = true
      ∧ t.txh.seq.toNat = s.base.toNat + k
      ∧ Buffer.get s.buf (s.base.toNat + k) = some p ∧ t.txh.frame = encodeWith s.act p
      ∧ t.buf = s.buf ∧ t.base = s.base ∧ t.next = s.next

/-- R122 with R14 and R158: within a session BASE and NEXT only grow, NEXT by at most one a cycle. Only reset, TEARDOWN
or a CONFIGURE that completes OK brings them back, and then to SEQ_INIT with BUF empty. -/
def Obligations.SequenceNumbersOnlyGrowInASession : Prop :=
  ∀ s t : State, Invariants s → step s = .next t →
    (s.base.toNat ≤ t.base.toNat ∧ s.next.toNat ≤ t.next.toNat ∧ t.next.toNat ≤ s.next.toNat + 1)
      ∨ ((s.currentInputs.rst = true ∨ runsCommand s.params s.currentInputs .teardown
            ∨ runsCommand s.params s.currentInputs .configure ∧ t.last = .ok)
          ∧ t.base.toNat = s.params.seqInit ∧ t.next.toNat = s.params.seqInit ∧ t.txptr.toNat = s.params.seqInit
          ∧ t.buf = [])

/-- A buffered payload is never mutated (R46, R117): an entry that is in BUF before and after a step is the same. -/
def Obligations.BufferedPayloadsAreNeverMutated : Prop :=
  ∀ (s t : State) (q : Nat) (p p' : BitString), Invariants s → step s = .next t →
    Buffer.get s.buf q = some p → Buffer.get t.buf q = some p' → p' = p

/-! ### The CSMA/CD controller -/

/-- R102: at the internal sub-step an idle, configured unit with a frame waiting latches the frame at TXPTR, whose
payload is in BUF, and presents it; BUF and every other element stay. -/
def Obligations.AttemptStartLatchesTheFrameAtTxptr : Prop :=
  ∀ s : State, WindowInvariant s → BufferInvariant s → s.cs = .idle → s.cfgValid = true →
    s.txptr.toNat < s.next.toNat →
    ∃ p, Buffer.get s.buf s.txptr.toNat = some p
      ∧ internal s = .next { s with
          txh := { valid := true, seq := s.txptr, frame := encodeWith s.act p }
          txptr := s.txptr + 1, coll := 0, cs := .transmitting }

/-- R162: a SEND that is accepted while the unit is idle puts its frame on the TX port in the same cycle. -/
def Obligations.AcceptedSendIsPresentedInItsCycle : Prop :=
  ∀ s : State, Invariants s → s.cs = .idle → s.cfgValid = true → operandOk s = true →
    s.data.len.toNat + redundancy s.act ≤ s.params.bmax →
    s.next.toNat - s.base.toNat < s.act.win.toNat → s.next.toNat ≠ s.params.seqLimit →
    ∃ t, step (s.withCommandWord (encode .send)) = .next t ∧ t.last = .ok ∧ t.next = s.next + 1
      ∧ t.txptr = t.next
      ∧ txPort t = { valid := true, seq := s.next, len := (encodeWith s.act s.data).len,
                     cw := (encodeWith s.act s.data).bits }

/-- R105 with R115: a response with no collision ends the attempt: Idle, TXH cleared, CNT_TXOK, COLL kept, and the
timer (re)started exactly when it is enabled and frames are outstanding. -/
def Obligations.SentEndsTheAttemptAndStartsTheTimer : Prop :=
  ∀ (s : State) (draw : BitVec 10), s.cs = .transmitting →
    respond false draw s = { s with
      cs := .idle
      txh := { valid := false, seq := 0, frame := ⟨0, 0⟩ }
      counters := { s.counters with txok := s.counters.txok + 1 }
      tmr := if s.act.timeout ≠ 0 ∧ s.next ≠ s.base then s.act.timeout else s.tmr
      tmrRun := if s.act.timeout ≠ 0 ∧ s.next ≠ s.base then true else s.tmrRun }

/-- R106 with R108: a collision below the retry cap counts, saturating COLL, withdraws the frame into Backoff with the
held frame unchanged, and loads BOCNT with the low e bits of the draw times the slot. -/
def Obligations.CollisionBelowTheCapBacksOff : Prop :=
  ∀ (s : State) (draw : BitVec 10), s.cs = .transmitting →
    (s.act.maxRetry = 0 ∨ min (s.coll.toNat + 1) 0xFFFF ≤ s.act.maxRetry.toNat) →
    ∃ c b, respond true draw s = { s with
        counters := { s.counters with coll := s.counters.coll + 1 }
        coll := c, cs := .backoff, bocnt := b }
      ∧ c.toNat = min (s.coll.toNat + 1) 0xFFFF
      ∧ (s.act.boMode = .immediate → b = 0)
      ∧ (s.act.boMode = .beb → b.toNat = draw.toNat % 2 ^ min c.toNat 10 * s.act.slot.toNat)

/-- R107 with R106 and R115: the collision past the retry cap abandons the attempt: Idle, TXH cleared, CNT_ABORT and
F_ABORT, BUF and TXPTR unchanged, and the timer as after a transmission. -/
def Obligations.CollisionPastTheCapAborts : Prop :=
  ∀ (s : State) (draw : BitVec 10), s.cs = .transmitting → s.act.maxRetry ≠ 0 →
    s.act.maxRetry.toNat < min (s.coll.toNat + 1) 0xFFFF →
    ∃ c : BitVec 16, c.toNat = min (s.coll.toNat + 1) 0xFFFF
      ∧ respond true draw s = { s with
          cs := .idle
          txh := { valid := false, seq := 0, frame := ⟨0, 0⟩ }
          coll := c
          counters := { s.counters with coll := s.counters.coll + 1, abort := s.counters.abort + 1 }
          flags := { s.flags with abort := true }
          tmr := if s.act.timeout ≠ 0 ∧ s.next ≠ s.base then s.act.timeout else s.tmr
          tmrRun := if s.act.timeout ≠ 0 ∧ s.next ≠ s.base then true else s.tmrRun }

/-- R104: a response while CS is Idle or Backoff sets F_SPUR and changes nothing else. -/
def Obligations.SpuriousResponseOnlySetsItsFlag : Prop :=
  ∀ (s : State) (collision : Bool) (draw : BitVec 10), s.cs ≠ .transmitting →
    respond collision draw s = { s with flags := { s.flags with spur := true } }

/-- From R112: in NONE mode with no retry cap, n collision answers in a row, with no other input, leave the frame
presented, never Sent or aborted, and the timer as it was; COLL saturates. -/
def Obligations.UnboundedCollisionsNeverEndTheAttempt : Prop :=
  ∀ (s : State) (n : Nat) (draw : BitVec 10) (rest : List Inputs), Invariants s → s.cs = .transmitting →
    s.act.boMode = .immediate → s.act.maxRetry = 0 → s.inputs = List.replicate n (respOnly true draw) ++ rest →
    ∃ t, runSteps n s = .next t ∧ txPort t = txPort s ∧ (txPort t).valid = true
      ∧ t.tmr = s.tmr ∧ t.tmrRun = s.tmrRun ∧ t.counters.txok = s.counters.txok
      ∧ t.counters.abort = s.counters.abort ∧ t.coll.toNat = min (s.coll.toNat + n) 0xFFFF

/-- R34 with R106: in NONE mode a retry cap R lets a fresh frame collide R times and aborts it at collision R + 1,
with its payload still buffered. -/
def Obligations.RetryCapAbortsAtTheNextCollision : Prop :=
  ∀ (s : State) (draw : BitVec 10) (rest : List Inputs), Invariants s → s.cs = .transmitting → s.coll = 0 →
    s.act.boMode = .immediate → s.act.maxRetry ≠ 0 → s.act.maxRetry.toNat < 0xFFFF →
    s.inputs = List.replicate (s.act.maxRetry.toNat + 1) (respOnly true draw) ++ rest →
    (∀ k, k ≤ s.act.maxRetry.toNat → ∃ t, runSteps k s = .next t ∧ txPort t = txPort s ∧ t.coll.toNat = k
        ∧ t.counters.abort = s.counters.abort)
      ∧ ∃ t, runSteps (s.act.maxRetry.toNat + 1) s = .next t ∧ t.flags.abort = true
        ∧ t.counters.abort = s.counters.abort + 1 ∧ t.buf = s.buf ∧ t.base = s.base ∧ t.next = s.next

/-- R110: in BEB mode with a draw of b ticks the held frame is out of sight until the b-th tick and is presented again,
unchanged, at the end of that tick's cycle, or in the collision's own cycle when b = 0. A tick in the collision's own
cycle counts as the first: `own` says whether there is one, and n is how many ticks are then left. -/
def Obligations.BackedOffFrameReturnsAtTheLastTick : Prop :=
  ∀ (s : State) (draw : BitVec 10) (own : Bool) (b n : Nat) (rest : List Inputs), Invariants s →
    s.cs = .transmitting → s.act.boMode = .beb →
    (s.act.maxRetry = 0 ∨ min (s.coll.toNat + 1) 0xFFFF ≤ s.act.maxRetry.toNat) →
    b = draw.toNat % 2 ^ min (s.coll.toNat + 1) 10 * s.act.slot.toNat → n = b - own.toNat →
    s.inputs = { respOnly true draw with tick := own } :: (List.replicate n tickOnly ++ rest) →
    (∀ k, k < n → ∃ t, runSteps (k + 1) s = .next t ∧ (txPort t).valid = false ∧ t.bocnt.toNat = n - k
        ∧ t.txh = s.txh)
      ∧ ∃ t, runSteps (n + 1) s = .next t ∧ (txPort t).valid = true ∧ t.bocnt = 0 ∧ t.txh = s.txh

/-- R111: only TEARDOWN and CONFIGURE among the commands touch the held frame or the unit's state; a tick touches
neither the held frame nor COLL. -/
def Obligations.HeldFrameIsIndependentOfTheSender : Prop :=
  (∀ (c : Instr) (s t : State), exec c s = .next t → c ≠ .teardown → c ≠ .configure →
      t.txh = s.txh ∧ t.cs = s.cs ∧ t.coll = s.coll ∧ t.bocnt = s.bocnt)
    ∧ ∀ (i : Inputs) (s : State), (tickSubstep i s).txh = s.txh ∧ (tickSubstep i s).cs = s.cs
        ∧ (tickSubstep i s).coll = s.coll

/-! ### The register bus -/

/-- R20: every register stands at the offset the map gives it, and a word-aligned offset reaches a register exactly
when the instance has that register there. -/
def Obligations.RegisterMapHasOneRegisterPerOffset : Prop :=
  (Reg.cmd.offset = 0x000 ∧ Reg.status.offset = 0x004 ∧ Reg.param.offset = 0x008 ∧ Reg.state.offset = 0x00C
      ∧ Reg.base.offset = 0x010 ∧ Reg.next.offset = 0x014 ∧ Reg.txptr.offset = 0x018 ∧ Reg.tmr.offset = 0x01C
      ∧ Reg.txh.offset = 0x020 ∧ Reg.coll.offset = 0x024 ∧ Reg.bocnt.offset = 0x028 ∧ Reg.cntTxok.offset = 0x030
      ∧ Reg.cntColl.offset = 0x034 ∧ Reg.cntAbort.offset = 0x038 ∧ Reg.cntInvAck.offset = 0x03C
      ∧ Reg.cntTout.offset = 0x040 ∧ Reg.cfgCtrl.offset = 0x080 ∧ Reg.cfgWin.offset = 0x084
      ∧ Reg.cfgTimeout.offset = 0x088 ∧ Reg.cfgMaxRetry.offset = 0x08C ∧ Reg.cfgSlot.offset = 0x090
      ∧ Reg.cfgKeyLo.offset = 0x094 ∧ Reg.cfgKeyHi.offset = 0x098 ∧ Reg.actCtrl.offset = 0x0A0
      ∧ Reg.actWin.offset = 0x0A4 ∧ Reg.actTimeout.offset = 0x0A8 ∧ Reg.actMaxRetry.offset = 0x0AC
      ∧ Reg.actSlot.offset = 0x0B0 ∧ Reg.actKeyLo.offset = 0x0B4 ∧ Reg.actKeyHi.offset = 0x0B8
      ∧ Reg.dataLen.offset = 0x100 ∧ Reg.resultLen.offset = 0x200)
    ∧ (∀ j, (Reg.data j).offset = 0x180 + 4 * j ∧ (Reg.result j).offset = 0x280 + 4 * j)
    ∧ (∀ (p : Params) (j : Nat), (Reg.exists p (.data j) = true ↔ j < p.bmax / 32)
        ∧ (Reg.exists p (.result j) = true ↔ j < p.bmax / 32))
    ∧ (∀ (p : Params) (r : Reg), (∀ j, r ≠ .data j) → (∀ j, r ≠ .result j) → Reg.exists p r = true)
    ∧ ∀ (p : Params) (a : Nat) (r : Reg), p.legal = true → a % 4 = 0 →
      (regAt p a = some r ↔ Reg.exists p r = true ∧ r.offset = a)

/-- R65 with R20's access types: an access is refused exactly for a wrong size, a misaligned or unmapped offset, or a
write to one of the read-only registers listed; a refused access raises bus_err with read data 0 and changes nothing
else in its sub-step. -/
def Obligations.RefusedAccessOnlyRaisesBusErr : Prop :=
  (∀ r : Reg, r.access = .ro ↔
    r ∈ [Reg.param, .state, .base, .next, .txptr, .tmr, .txh, .coll, .bocnt,
        .cntTxok, .cntColl, .cntAbort, .cntInvAck, .cntTout,
        .actCtrl, .actWin, .actTimeout, .actMaxRetry, .actSlot, .actKeyLo, .actKeyHi, .resultLen]
      ∨ ∃ j, r = .result j)
    ∧ (∀ r : Reg, r.access = .rw ↔
      r ∈ [Reg.cfgCtrl, .cfgWin, .cfgTimeout, .cfgMaxRetry, .cfgSlot, .cfgKeyLo, .cfgKeyHi, .dataLen]
        ∨ ∃ j, r = .data j)
    ∧ Reg.cmd.access = .wo ∧ Reg.status.access = .w1c
    ∧ (∀ (p : Params) (w : Bool) (a : BitVec 12) (z : BitVec 3),
      (∃ e, busTarget p w a z = .error e) ↔
        (z ≠ 4 ∨ a.toNat % 4 ≠ 0 ∨ regAt p a.toNat = none
          ∨ (w = true ∧ ∃ r, regAt p a.toNat = some r ∧ r.access = .ro)))
    ∧ ∀ (i : Inputs) (s : State) (e : BusRefusal), i.busValid = true →
        busTarget s.params i.busWrite i.busAddr i.busSize = .error e →
        busSubstep i s = .next { s with out := ⟨0, true⟩ }

/-- R62: an accepted read returns the register's content at the start of the cycle, whatever else the cycle does, and
changes no state by itself. The first clauses say what each register but STATUS, STATE and PARAM reads as: CMD (R21),
BASE, NEXT, TXPTR, TMR, TXH, COLL, BOCNT and the counters (R25 to R30), the CFG_ and ACT_ registers (R31 to R37), DATA
and RESULT (R38, R39). -/
def Obligations.ReadReturnsTheStartOfCycleValue : Prop :=
  (∀ s : State, readReg s .cmd = 0
      ∧ (readReg s .base).toNat = s.base.toNat ∧ (readReg s .next).toNat = s.next.toNat
      ∧ (readReg s .txptr).toNat = s.txptr.toNat ∧ readReg s .tmr = s.tmr
      ∧ (readReg s .txh).toNat = s.txh.frame.len.toNat * 2 ^ 16 + s.txh.seq.toNat
      ∧ (readReg s .coll).toNat = s.coll.toNat ∧ readReg s .bocnt = s.bocnt
      ∧ readReg s .cntTxok = s.counters.txok ∧ readReg s .cntColl = s.counters.coll
      ∧ readReg s .cntAbort = s.counters.abort ∧ readReg s .cntInvAck = s.counters.invAck
      ∧ readReg s .cntTout = s.counters.tout)
    ∧ (∀ s : State, readsConfig s.cfg (readReg s .cfgCtrl) (readReg s .cfgWin) (readReg s .cfgTimeout)
        (readReg s .cfgMaxRetry) (readReg s .cfgSlot) (readReg s .cfgKeyLo) (readReg s .cfgKeyHi))
    ∧ (∀ s : State, readsConfig s.act (readReg s .actCtrl) (readReg s .actWin) (readReg s .actTimeout)
        (readReg s .actMaxRetry) (readReg s .actSlot) (readReg s .actKeyLo) (readReg s .actKeyHi))
    ∧ (∀ s : State, (readReg s .dataLen).toNat = s.data.len.toNat ∧ (readReg s .resultLen).toNat = s.result.len.toNat
      ∧ ∀ j i, i < 32 → (readReg s (.data j)).getLsbD i = s.data.bits.getLsbD (32 * j + i)
          ∧ (readReg s (.result j)).getLsbD i = s.result.bits.getLsbD (32 * j + i))
    ∧ ∀ (s : State) (i : Inputs) (rest : List Inputs) (r : Reg), Invariants s → s.inputs = i :: rest →
      accesses s.params i false r →
      ∃ t, step s = .next t ∧ t.out = ⟨readReg s r, false⟩
        ∧ (i.respValid = false → i.tick = false → t = { s with inputs := rest, out := ⟨readReg s r, false⟩ })

/-- R64 with R66: a storage write replaces the register's defined bits, drops the reserved ones, and leaves every other
register and every other element unchanged. -/
def Obligations.StorageWriteReplacesTheDefinedBits : Prop :=
  ∀ (s : State) (r : Reg) (w : Word), s.params.legal = true → Reg.exists s.params r = true → r.access = .rw →
    readReg (writeReg s r w) r = w &&& storedBits r
      ∧ (∀ q, q ≠ r → readReg (writeReg s r w) q = readReg s q)
      ∧ writeReg s r w = { s with cfg := (writeReg s r w).cfg, data := (writeReg s r w).data }

/-- R22 with R140: STATUS reads the code of LAST in bits 3:0, VERDICT in bit 4, the four sticky flags in bits 8 to 11
and 0 elsewhere; a write to it clears the flags whose bit 8 to 11 is written 1, and changes nothing else. -/
def Obligations.StatusReadsItsFieldsAndClearsTheSelectedFlags : Prop :=
  (∀ s : State,
    ((readReg s .status).extractLsb' 0 4).toNat
        = (match s.last with
          | .ok => 0
          | .malformedInput => 1
          | .invalidKey => 2
          | .invalidAck => 3
          | .windowFull => 4
          | .notConfigured => 5
          | .seqExhausted => 6
          | .illegalCommand => 7
          | .invalidConfig => 8)
      ∧ (readReg s .status).getLsbD 4 = s.verdict
      ∧ (readReg s .status).extractLsb' 5 3 = 0
      ∧ (readReg s .status).getLsbD 8 = s.flags.invAck
      ∧ (readReg s .status).getLsbD 9 = s.flags.abort
      ∧ (readReg s .status).getLsbD 10 = s.flags.tout
      ∧ (readReg s .status).getLsbD 11 = s.flags.spur
      ∧ (readReg s .status).extractLsb' 12 20 = 0)
    ∧ ∀ (s : State) (w : Word),
      (∀ i, i < 32 → (readReg (writeReg s .status w) .status).getLsbD i
          = ((readReg s .status).getLsbD i && !(decide (8 ≤ i) && decide (i ≤ 11) && w.getLsbD i)))
        ∧ writeReg s .status w = { s with flags := (writeReg s .status w).flags }

/-- R74 and R161: a flag that a later sub-step sets survives a W1C clear of the same cycle: F_SPUR, F_ABORT and F_TOUT
by the event of each, and in general every flag that the cycle's response, tick and internal transition would set if
the cycle had no bus access and the flags were clear before it. -/
def Obligations.FlagSetInTheCycleSurvivesTheClear : Prop :=
  ∀ (s : State) (i : Inputs) (rest : List Inputs), Invariants s → s.inputs = i :: rest →
    accesses s.params i true .status →
    ∃ t, step s = .next t
      ∧ (i.respValid = true → s.cs ≠ .transmitting → t.flags.spur = true)
      ∧ (i.respValid = true → i.respCollision = true → s.cs = .transmitting → s.act.maxRetry ≠ 0 →
          s.act.maxRetry.toNat < min (s.coll.toNat + 1) 0xFFFF → t.flags.abort = true)
      ∧ (i.respValid = false ∨ s.cs ≠ .transmitting → i.tick = true → s.tmrRun = true → s.tmr = 1 →
          t.flags.tout = true)
      ∧ ∀ u, step { s with flags := StickyFlags.clear, inputs := { i with busValid := false } :: rest } = .next u →
          (u.flags.invAck = true → t.flags.invAck = true) ∧ (u.flags.abort = true → t.flags.abort = true)
            ∧ (u.flags.tout = true → t.flags.tout = true) ∧ (u.flags.spur = true → t.flags.spur = true)

/-- R24 with R114: the fields of STATE, the sender's state in OCC and AWAIT among them; OCC is never 3; it is 0 after
reset. -/
def Obligations.StateRegisterShowsTheDerivedFields : Prop :=
  (∀ p : Params, readReg (State.resetFor p) .state = 0) ∧ ∀ s : State,
    ((readReg s .state).extractLsb' 0 2).toNat
        = (if s.next = s.base then 0 else if s.next.toNat - s.base.toNat = s.act.win.toNat then 2 else 1)
      ∧ (readReg s .state).getLsbD 2 = decide (s.next ≠ s.base)
      ∧ (readReg s .state).getLsbD 3 = s.tmrRun
      ∧ ((readReg s .state).extractLsb' 4 2).toNat
          = (match s.cs with | .idle => 0 | .transmitting => 1 | .backoff => 2)
      ∧ (readReg s .state).getLsbD 6 = s.txh.valid
      ∧ (readReg s .state).getLsbD 7 = s.cfgValid
      ∧ (readReg s .state).extractLsb' 8 24 = 0

/-- R23: PARAM is a constant of the instance: WMAX, SEQ_W, DW and KMAX in their fields, 0 between them; it is
0x40081008 with the default parameters. -/
def Obligations.ParamReportsTheInstance : Prop :=
  (∀ s : State, s.params.legal = true →
    ((readReg s .param).extractLsb' 0 8).toNat = s.params.wmax
      ∧ ((readReg s .param).extractLsb' 8 5).toNat = s.params.seqW
      ∧ (readReg s .param).extractLsb' 13 3 = 0
      ∧ ((readReg s .param).extractLsb' 16 8).toNat = s.params.bmax / 32
      ∧ (readReg s .param).extractLsb' 24 8 = 64)
    ∧ readReg State.reset .param = 0x40081008
    ∧ (∀ p : Params, p.legal = true → (readReg (State.resetFor p) .base).toNat = p.seqInit)
    ∧ ∀ s t : State, step s = .next t → readReg t .param = readReg s .param

/-- R85, each pseudo-instruction: `bits "s"` leaves (DATA_LEN, DATA) as the packing of s, a well-formed operand, and
changes nothing else; the eight lines of `config` with a legal configuration end with OK and that configuration active,
in a new session; `key K` stages K and changes nothing else; `clrflags` clears the four flags and nothing else;
`ticks n` is n cycles of one tick each; `cmd ACK n` writes (n << 16) | 4 to CMD. -/
def Obligations.PseudoInstructionsDoWhatTheyStandFor : Prop :=
  (∀ (s : State) (cs : List Bool) (rest : List Inputs), Invariants s → cs.length ≤ s.params.bmax →
    s.inputs = programInputs s.params [.bits cs] ++ rest →
    runSteps (s.params.dw + 1) s = .next { s with data := pack cs, inputs := rest, out := BusOut.zero }
      ∧ wellFormed s.params.bmax (pack cs) = true)
    ∧ (∀ (s : State) (a : ConfigArgs) (rest : List Inputs), Invariants s →
      (a.mode = .crc → keyValid a.key = true) → 1 ≤ a.win.toNat → a.win.toNat ≤ s.params.wmax →
      a.maxretry.toNat < 2 ^ 16 → a.slot.toNat < 2 ^ 16 →
      s.inputs = programInputs s.params [.config a] ++ rest →
      ∃ t, runSteps 8 s = .next t ∧ t.last = .ok ∧ t.cfgValid = true ∧ t.cfg = t.act
        ∧ t.act.mode = a.mode ∧ t.act.boMode = a.bo ∧ t.act.win.toNat = a.win.toNat
        ∧ t.act.timeout = a.timeout ∧ t.act.maxRetry.toNat = a.maxretry.toNat
        ∧ t.act.slot.toNat = a.slot.toNat ∧ t.act.key = a.key
        ∧ t.buf = [] ∧ t.base.toNat = s.params.seqInit ∧ t.next = t.base ∧ t.txptr = t.base
        ∧ t.data = s.data ∧ t.inputs = rest)
    ∧ (∀ (s : State) (k : BitVec 64) (rest : List Inputs), Invariants s →
      s.inputs = programInputs s.params [.key k] ++ rest →
      runSteps 2 s = .next { s with cfg := { s.cfg with key := k }, inputs := rest, out := BusOut.zero })
    ∧ (∀ (s : State) (rest : List Inputs), Invariants s → s.inputs = programInputs s.params [.clrflags] ++ rest →
      step s = .next { s with flags := ⟨false, false, false, false⟩, inputs := rest, out := BusOut.zero })
    ∧ (∀ (p : Params) (n : Nat), programInputs p [.ticks n] = List.replicate n tickOnly)
    ∧ ∀ (p : Params) (n : BitVec 16), programInputs p [.line [.bus (.command (encode (.ack n)))]]
        = [Inputs.commandWrite ((n.setWidth 32 <<< 16) ||| 0x4)]

/-! ### Session control and illegal words -/

/-- R126 and R81: NOP writes OK, code 0, and a word that is not legal writes IllegalCommand, code 7, to LAST, and
neither changes anything else. -/
def Obligations.NopAndIllegalWordsOnlyWriteLast : Prop :=
  decodeWord 0x00000000 = .nop
    ∧ (∀ s : State, exec .nop s = .next { s with last := .ok })
    ∧ (∀ s : State, s.last = .ok → (readReg s .status).extractLsb' 0 4 = 0)
    ∧ (∀ (w : Word) (s : State), exec (.illegal w) s = .next { s with last := .illegalCommand })
    ∧ (∀ (w : Word) (s : State), legalWord w = false → executeWord w s = .next { s with last := .illegalCommand })
    ∧ ∀ s : State, s.last = .illegalCommand → (readReg s .status).extractLsb' 0 4 = 7

/-- CONFIGURE (R127, R128): its two errors in order, with nothing but LAST changed; otherwise CFG_ becomes ACT_,
CFG_VALID is set and the session starts anew, counters, flags, VERDICT, DATA and RESULT kept. -/
def Obligations.ConfigureInstallsTheStagedConfiguration : Prop :=
  decodeWord 0x00000006 = .configure ∧ ∀ s : State,
    (s.cfg.mode = .crc → keyValid s.cfg.key = false → exec .configure s = .next { s with last := .invalidKey })
      ∧ ((s.cfg.mode = .crc → keyValid s.cfg.key = true) → (s.cfg.win = 0 ∨ s.params.wmax < s.cfg.win.toNat) →
          exec .configure s = .next { s with last := .invalidConfig })
      ∧ ((s.cfg.mode = .crc → keyValid s.cfg.key = true) → s.cfg.win ≠ 0 → s.cfg.win.toNat ≤ s.params.wmax →
          exec .configure s = .next { s with
            act := s.cfg, cfgValid := true
            base := BitVec.ofNat 16 s.params.seqInit
            next := BitVec.ofNat 16 s.params.seqInit
            txptr := BitVec.ofNat 16 s.params.seqInit
            buf := [], tmr := 0, tmrRun := false, cs := .idle
            txh := { valid := false, seq := 0, frame := ⟨0, 0⟩ }
            coll := 0, bocnt := 0, last := .ok })

/-- TEARDOWN (R129, R128): the session starts anew, with CFG_VALID, the active configuration, counters and flags kept. -/
def Obligations.TeardownRestartsTheSession : Prop :=
  decodeWord 0x00000007 = .teardown ∧ ∀ s : State, exec .teardown s = .next { s with
    base := BitVec.ofNat 16 s.params.seqInit
    next := BitVec.ofNat 16 s.params.seqInit
    txptr := BitVec.ofNat 16 s.params.seqInit
    buf := [], tmr := 0, tmrRun := false, cs := .idle
    txh := { valid := false, seq := 0, frame := ⟨0, 0⟩ }
    coll := 0, bocnt := 0, last := .ok }

/-- R155 with R104: a response in the cycle of a TEARDOWN, or of a CONFIGURE that passes its checks, answers no attempt:
it is spurious, sets no other flag and counts nothing. -/
def Obligations.ResponseInTheSessionResetCycleIsSpurious : Prop :=
  ∀ (s : State) (c : Instr) (collision : Bool) (draw : BitVec 10) (rest : List Inputs), s.params.legal = true →
    (c = .teardown ∨ c = .configure ∧ (s.cfg.mode = .crc → keyValid s.cfg.key = true) ∧ s.cfg.win ≠ 0
      ∧ s.cfg.win.toNat ≤ s.params.wmax) →
    s.inputs = { Inputs.commandWrite (encode c) with
      respValid := true, respCollision := collision, boDraw := draw } :: rest →
    ∃ t, step s = .next t ∧ t.last = .ok ∧ t.flags = { s.flags with spur := true } ∧ t.counters = s.counters
      ∧ t.cs = .idle ∧ t.tmrRun = false ∧ t.buf = []

/-! ### Rules about the whole machine -/

/-- R141: only a command writes LAST: in a cycle with no reset and no accepted write to CMD it keeps its value. -/
def Obligations.OnlyCommandsWriteLast : Prop :=
  ∀ s t : State, step s = .next t → s.currentInputs.rst = false → ¬accesses s.params s.currentInputs true .cmd →
    t.last = s.last

/-- R19 (b), R16 and R37: VERDICT changes only in a VERIFY, RESULT only in an ENCODE that completes OK, and the active
configuration only in a CONFIGURE that completes OK, apart from reset. -/
def Obligations.EachResultHasOneWriter : Prop :=
  ∀ s t : State, step s = .next t → s.currentInputs.rst = false →
    (t.verdict ≠ s.verdict → runsCommand s.params s.currentInputs .verify)
      ∧ (t.result ≠ s.result → runsCommand s.params s.currentInputs .encode ∧ t.last = .ok)
      ∧ ((t.act ≠ s.act ∨ t.cfgValid ≠ s.cfgValid) →
          runsCommand s.params s.currentInputs .configure ∧ t.last = .ok ∧ t.act = s.cfg ∧ t.cfgValid = true)

/-- R19 (c): a sticky flag that a step clears was cleared by reset or by the host writing 1 to its bit. -/
def Obligations.OnlyTheHostClearsAFlag : Prop :=
  ∀ s t : State, step s = .next t → s.currentInputs.rst = false →
    ((s.flags.invAck = true ∧ t.flags.invAck = false) →
        accesses s.params s.currentInputs true .status ∧ s.currentInputs.busWdata.getLsbD 8 = true)
      ∧ ((s.flags.abort = true ∧ t.flags.abort = false) →
        accesses s.params s.currentInputs true .status ∧ s.currentInputs.busWdata.getLsbD 9 = true)
      ∧ ((s.flags.tout = true ∧ t.flags.tout = false) →
        accesses s.params s.currentInputs true .status ∧ s.currentInputs.busWdata.getLsbD 10 = true)
      ∧ ((s.flags.spur = true ∧ t.flags.spur = false) →
        accesses s.params s.currentInputs true .status ∧ s.currentInputs.busWdata.getLsbD 11 = true)

/-- R19: no rule reads a flag. R30 and R124: no rule of the step reads a statistics counter but to count it up. Two states that differ in their flags and statistics counters alone step alike; only
those and what the bus read back differ afterwards. -/
def Obligations.FlagsAndCountersInfluenceNothing : Prop :=
  ∀ (s t : State) (f : StickyFlags) (c : Counters), step s = .next t →
    ∃ f' c' o, step { s with flags := f, counters := c } = .next { t with flags := f', counters := c', out := o }

/-! ### With the environment -/

/-- R136 with R47 and R98: a receiver with the sender's code that expects the presented frame's number accepts the
frame unchanged: it hands up exactly the payload buffered under that number and acknowledges it. The channel and the receiver
are the environment's functions beside the machine (log entry 8). -/
def Obligations.ReceiverGetsTheBufferedPayload : Prop :=
  ∀ (s : State) (f : Frame) (p : BitString) (reAck : Bool), Invariants s → presentedFrame s = some f →
    Buffer.get s.buf f.seq.toNat = some p →
    ∃ f', ChannelEvent.deliver f .delivered = some f'
      ∧ onFrame s.act reAck f.seq f' = (.deliver p f.seq, f.seq + 1)

/-- R134 with R99: in CRC mode a channel that flips one bit of an outstanding presented frame's codeword makes the
receiver drop it with no ACK, whatever number it expects. The channel and the receiver are the environment's functions
beside the machine (log entry 8). -/
def Obligations.ReceiverDropsASingleBitCorruption : Prop :=
  ∀ (s : State) (f : Frame) (p : BitString) (reAck : Bool) (expected : BitVec 16) (i : Nat), Invariants s →
    s.act.mode = .crc → presentedFrame s = some f → Buffer.get s.buf f.seq.toNat = some p →
    i < f.cw.len.toNat →
    ∃ f', ChannelEvent.deliver f (.corrupted (1 <<< i)) = some f'
      ∧ onFrame s.act reAck expected f' = (.drop, expected)
end

