-- ==== Sys2Proof/Laws/Buffer.lean ====
section
/-! SUPPORT. The frame buffer: what a put or a removal leaves at each key, and that both keep the canonical form. -/

namespace Sys2Proof.Machine.Buffer

open Sys2Proof Sys2Proof.Machine

theorem wf_iff (b : Buffer) : wf b = true ↔ b.Pairwise fun x y => x.1 < y.1 := by simp [wf]

theorem wf_nil : wf [] = true := rfl

theorem wf_of_keys {b : Buffer} {lo n : Nat} (h : b.map Prod.fst = List.range' lo n) : wf b = true := by
  rw [wf_iff, ← List.pairwise_map (f := Prod.fst) (R := (· < ·)), h]
  exact List.pairwise_lt_range'

theorem mem_put {b : Buffer} {q : Nat} {p : BitString} {e : Nat × BitString} (h : e ∈ put b q p) :
    e = (q, p) ∨ e ∈ b := by
  induction b with
  | nil => simpa [put] using h
  | cons x b ih =>
    obtain ⟨k, v⟩ := x
    unfold put at h
    split at h
    · simpa using h
    · split at h
      · simp at h ⊢; tauto
      · simp only [List.mem_cons] at h ⊢
        rcases h with h | h
        · simp [h]
        · rcases ih h with h | h <;> simp [h]

theorem put_wf {b : Buffer} (q : Nat) (p : BitString) (h : wf b = true) : wf (put b q p) = true := by
  rw [wf_iff] at *
  induction b with
  | nil => simp [put]
  | cons x b ih =>
    obtain ⟨k, v⟩ := x
    rw [List.pairwise_cons] at h
    unfold put
    split
    · rename_i hq
      refine List.pairwise_cons.2 ⟨?_, List.pairwise_cons.2 h⟩
      simp only [List.mem_cons]
      rintro e (rfl | he)
      · exact hq
      · exact Nat.lt_trans hq (h.1 e he)
    · split
      · rename_i hq; subst hq
        exact List.pairwise_cons.2 h
      · refine List.pairwise_cons.2 ⟨fun e he => ?_, ih h.2⟩
        rcases mem_put he with rfl | he
        · simp only; omega
        · exact h.1 e he

theorem get_put (b : Buffer) (q k : Nat) (p : BitString) (h : wf b = true) :
    get (put b q p) k = if k = q then some p else get b k := by
  rw [wf_iff] at h
  induction b with
  | nil => simp [put, get]
  | cons x b ih =>
    obtain ⟨j, v⟩ := x
    rw [List.pairwise_cons] at h
    have ih := ih h.2
    unfold put
    split
    · simp [get]
    · split
      · rename_i hq; subst hq
        by_cases hk : k = q <;> simp [get, hk]
      · by_cases hj : k = j
        · subst hj
          have : ¬ k = q := fun e => by omega
          simp [get, this]
        · simp [get, hj, ih]

theorem removeRange_wf {b : Buffer} (lo hi : Nat) (h : wf b = true) : wf (removeRange b lo hi) = true := by
  rw [wf_iff] at *
  exact h.sublist List.filter_sublist

theorem get_removeRange (b : Buffer) (lo hi q : Nat) :
    get (removeRange b lo hi) q = if lo ≤ q ∧ q ≤ hi then none else get b q := by
  induction b with
  | nil => simp [removeRange, get]
  | cons x b ih =>
    obtain ⟨k, v⟩ := x
    rw [removeRange] at ih ⊢
    rw [List.filter_cons]
    by_cases hr : lo ≤ k ∧ k ≤ hi
    · rw [if_neg (by simp; omega), ih]
      by_cases hq : q = k
      · simp [hq, hr]
      · simp [get, hq]
    · rw [if_pos (by simp; omega)]
      by_cases hq : q = k
      · simp [get, hq, hr]
      · rw [get, get, if_neg hq, if_neg hq, ih]

/-- With the keys of R41, a put at the end of the window appends. -/
theorem keys_put {b : Buffer} {lo n : Nat} (p : BitString) (h : b.map Prod.fst = List.range' lo n) :
    (put b (lo + n) p).map Prod.fst = List.range' lo (n + 1) := by
  have happ : put b (lo + n) p = b ++ [(lo + n, p)] := by
    have hlt : ∀ e ∈ b, e.1 < lo + n := fun e he => by
      have : e.1 ∈ b.map Prod.fst := List.mem_map_of_mem he
      rw [h, List.mem_range'_1] at this
      omega
    clear h
    induction b with
    | nil => rfl
    | cons x b ih =>
      obtain ⟨k, v⟩ := x
      have hk := hlt (k, v) (by simp)
      have : ¬ lo + n < k := by simp at hk; omega
      have h2 : ¬ lo + n = k := by simp at hk; omega
      simp [put, this, h2, ih fun e he => hlt e (by simp [he])]
  rw [happ, List.map_append, h, List.range'_concat]
  simp

/-- With the keys of R41, removing the first part of the window leaves the rest. -/
theorem keys_removeRange {b : Buffer} {lo n hi : Nat} (h : b.map Prod.fst = List.range' lo n)
    (h1 : lo ≤ hi) (h2 : hi < lo + n) :
    (removeRange b lo hi).map Prod.fst = List.range' (hi + 1) (lo + n - (hi + 1)) := by
  have hf : (removeRange b lo hi).map Prod.fst = (b.map Prod.fst).filter fun q => !(lo ≤ q && q ≤ hi) := by
    rw [List.filter_map]; rfl
  rw [hf, h]
  obtain ⟨m, rfl⟩ : ∃ m, n = (hi + 1 - lo) + m := ⟨n - (hi + 1 - lo), by omega⟩
  rw [List.range'_append_1.symm, List.filter_append, List.filter_eq_nil_iff.2, List.filter_eq_self.2]
  · rw [List.nil_append]
    congr 1 <;> omega
  · intro q hq
    rw [List.mem_range'_1] at hq
    simp; omega
  · intro q hq
    rw [List.mem_range'_1] at hq
    simp; omega

theorem get_of_keys {b : Buffer} {lo n q : Nat} (h : b.map Prod.fst = List.range' lo n)
    (h1 : lo ≤ q) (h2 : q < lo + n) : ∃ p, get b q = some p := by
  have : q ∈ b.map Prod.fst := by rw [h, List.mem_range'_1]; omega
  obtain ⟨e, he, rfl⟩ := List.mem_map.1 this
  clear h h1 h2 this
  induction b with
  | nil => cases he
  | cons x b ih =>
    by_cases hx : e.1 = x.1
    · exact ⟨x.2, by simp [get, hx]⟩
    · obtain ⟨p, hp⟩ := ih (by
        rcases List.mem_cons.1 he with rfl | h
        · exact absurd rfl hx
        · exact h)
      exact ⟨p, by simpa [get, hx] using hp⟩

theorem mem_of_get {b : Buffer} {q : Nat} {p : BitString} (h : get b q = some p) : (q, p) ∈ b := by
  induction b with
  | nil => simp [get] at h
  | cons x b ih =>
    obtain ⟨k, v⟩ := x
    by_cases hx : q = k
    · simp [get, hx] at h
      simp [hx, h]
    · simp [get, hx] at h
      exact List.mem_cons_of_mem _ (ih h)

end Sys2Proof.Machine.Buffer
end

