-- ==== Sys2Proof/Laws/Bus.lean ====
section
/-! SUPPORT. The register bus: when an access is accepted, that CMD is at offset 0, and what a storage write can touch. -/

namespace Sys2Proof.Machine

open Sys2Proof

/-- An access is accepted exactly when none of the four causes of R65 holds. -/
theorem busTarget_eq_ok_iff {p : Params} {w : Bool} {a : BitVec 12} {z : BitVec 3} {r : Reg} :
    busTarget p w a z = .ok r ↔
      z = 4 ∧ a.toNat % 4 = 0 ∧ regAt p a.toNat = some r ∧ ¬(w = true ∧ r.access = .ro) := by
  unfold busTarget
  by_cases hz : z = 4
  case neg => simp only [ne_eq, hz, not_false_eq_true, if_true, reduceCtorEq, false_and]
  by_cases ha : a.toNat % 4 = 0
  case neg => simp only [ne_eq, hz, ha, not_true_eq_false, not_false_eq_true, if_false, if_true, reduceCtorEq,
    false_and, and_false]
  simp only [ne_eq, hz, ha, not_true_eq_false, if_false, true_and]
  cases regAt p a.toNat with
  | none => simp
  | some q =>
    by_cases hq : w = true ∧ q.access = .ro
    · simp only [hq, and_self, if_true, reduceCtorEq, false_iff, Option.some.injEq]
      rintro ⟨rfl, hn⟩
      exact hn ⟨trivial, hq.2⟩
    · simp only [hq, if_false, Except.ok.injEq, Option.some.injEq]
      exact ⟨fun h => ⟨h, h ▸ hq⟩, fun h => h.1⟩

/-- CMD is the register at offset 0 of every instance (R20). -/
theorem regAt_zero (p : Params) : regAt p 0 = some .cmd := by
  simp [regAt, fixedRegs, Reg.offset]

/-- A word write to offset 0 reaches CMD. -/
theorem busTarget_cmd (p : Params) : busTarget p true 0x000 4 = .ok .cmd := by
  rw [busTarget_eq_ok_iff]
  exact ⟨rfl, rfl, regAt_zero p, by simp [Reg.access]⟩

/-- A storage write or the W1C clear touches the staged configuration, DATA and the sticky flags, and nothing else. -/
theorem writeReg_frame (s : State) (r : Reg) (w : Word) :
    writeReg s r w = { s with
      cfg := (writeReg s r w).cfg, data := (writeReg s r w).data, flags := (writeReg s r w).flags } := by
  cases r <;> rfl

end Sys2Proof.Machine
end

