-- ==== Sys2Proof/Laws/Checker.lean ====
section
/-! SUPPORT. The checker: what well-formedness and key validity give, the bound of a remainder, and that a codeword is well formed. -/

namespace Sys2Proof.Machine

open Sys2Proof

theorem shiftRight_eq_zero_iff (v : Bits) (n : Nat) : v >>> n = 0 ↔ v.toNat < 2 ^ n := by
  rw [← BitVec.toNat_inj, BitVec.toNat_ushiftRight, Nat.shiftRight_eq_div_pow]
  simp only [BitVec.ofNat_eq_ofNat, BitVec.toNat_ofNat, Nat.zero_mod]
  exact Nat.div_eq_zero_iff_lt (Nat.two_pow_pos n)

theorem wellFormed_iff (cap : Nat) (b : BitString) :
    wellFormed cap b = true ↔ b.len.toNat ≤ cap ∧ b.bits.toNat < 2 ^ b.len.toNat := by
  simp only [wellFormed, Bool.and_eq_true, decide_eq_true_eq, beq_iff_eq, shiftRight_eq_zero_iff]

/-- The bits of a well-formed string at and above its length are 0. -/
theorem wellFormed_getLsbD {cap : Nat} {b : BitString} (h : wellFormed cap b = true) {i : Nat}
    (hi : b.len.toNat ≤ i) : b.bits.getLsbD i = false := by
  rw [wellFormed_iff] at h
  exact Nat.testBit_lt_two_pow (Nat.lt_of_lt_of_le h.2 (Nat.pow_le_pow_right (by decide) hi))

theorem lt_two_pow_bitlen (v : Nat) : v < 2 ^ bitlen v := by
  unfold bitlen
  split
  · simp_all
  · exact Nat.lt_log2_self

theorem testBit_bitlen {v : Nat} (h : v ≠ 0) : v.testBit (bitlen v - 1) = true := by
  simp only [bitlen, h, if_false, Nat.add_sub_cancel]
  exact Nat.testBit_log2 h

theorem bitlen_le {v n : Nat} (h : v < 2 ^ n) : bitlen v ≤ n := by
  unfold bitlen
  split
  · omega
  · rename_i h0
    exact (Nat.log2_lt h0).2 h

theorem keyValid_iff (g : BitVec 64) :
    keyValid g = true ↔ 2 ≤ bitlen g.toNat ∧ g.toNat ≠ 2 ^ (bitlen g.toNat - 1) := by
  simp only [keyValid, Bool.and_eq_true, decide_eq_true_eq, bne_iff_ne]

theorem ne_zero_of_bitlen {v : Nat} (h : 1 ≤ bitlen v) : v ≠ 0 := by
  rintro rfl
  simp [bitlen] at h

/-- One iteration of `polymod` clears the bit it looks at and none above it appears. -/
theorem polymod_iteration_lt {g v : Bits} {r k : Nat} (hg : g.toNat < 2 ^ (r + 1)) (hr : g.getLsbD r = true)
    (hk : r + (k + 1) ≤ 1024) (hv : v.toNat < 2 ^ (r + (k + 1))) :
    (if v.getLsbD (r + k) then v ^^^ (g <<< k) else v).toNat < 2 ^ (r + k) := by
  refine Nat.lt_pow_two_of_testBit _ fun i hi => ?_
  have hvi : r + k + 1 ≤ i → v.getLsbD i = false := fun h =>
    Nat.testBit_lt_two_pow (Nat.lt_of_lt_of_le hv (Nat.pow_le_pow_right (by decide) (by omega)))
  have hgi : ∀ j, r + 1 ≤ j → g.getLsbD j = false := fun j hj =>
    Nat.testBit_lt_two_pow (Nat.lt_of_lt_of_le hg (Nat.pow_le_pow_right (by decide) hj))
  rw [BitVec.testBit_toNat]
  by_cases hb : v.getLsbD (r + k) = true
  · rw [if_pos hb, BitVec.getLsbD_xor, BitVec.getLsbD_shiftLeft]
    rcases Nat.lt_or_ge (r + k) i with h | h
    · rw [hvi h, hgi (i - k) (by omega)]
      simp
    · obtain rfl : i = r + k := by omega
      rw [hb, Nat.add_sub_cancel, hr]
      simp; omega
  · rw [if_neg hb]
    rcases Nat.lt_or_ge (r + k) i with h | h
    · exact hvi h
    · obtain rfl : i = r + k := by omega
      simpa using hb

theorem polymodLoop_lt {g : Bits} {r : Nat} (hg : g.toNat < 2 ^ (r + 1)) (hr : g.getLsbD r = true) :
    ∀ (k : Nat) (v : Bits), r + k ≤ 1024 → v.toNat < 2 ^ (r + k) → (polymodLoop g r k v).toNat < 2 ^ r
  | 0, _, _, hv => hv
  | k + 1, _, hk, hv =>
    polymodLoop_lt hg hr k _ (by omega) (polymod_iteration_lt hg hr hk hv)

/-- A key's coefficients as the divisor `polymod` uses: the top one is 1 and none is above it. -/
theorem divisor_bounds {g : BitVec 64} (h : 2 ≤ bitlen g.toNat) :
    (g.setWidth 1024).toNat < 2 ^ (bitlen g.toNat - 1 + 1)
      ∧ (g.setWidth 1024).getLsbD (bitlen g.toNat - 1) = true := by
  have hlen : bitlen g.toNat ≤ 64 := bitlen_le g.isLt
  constructor
  · rw [BitVec.toNat_setWidth_of_le (by omega)]
    have := lt_two_pow_bitlen g.toNat
    rwa [show bitlen g.toNat - 1 + 1 = bitlen g.toNat by omega]
  · rw [BitVec.getLsbD_setWidth, ← BitVec.testBit_toNat, testBit_bitlen (ne_zero_of_bitlen (by omega))]
    simp; omega

/-- The remainder has fewer than bitlen(G) bits (R13). -/
theorem polymod_lt {g : BitVec 64} {v : Bits} {n : Nat} (h : 2 ≤ bitlen g.toNat) (hn : n ≤ 1024)
    (hv : v.toNat < 2 ^ n) : (polymod v n g).toNat < 2 ^ (bitlen g.toNat - 1) := by
  simp only [polymod]
  have hb := divisor_bounds h
  by_cases hr : bitlen g.toNat - 1 ≤ n
  · refine polymodLoop_lt hb.1 hb.2 _ _ (by omega) ?_
    rwa [Nat.add_sub_cancel' hr]
  · rw [show n - (bitlen g.toNat - 1) = 0 by omega]
    exact Nat.lt_of_lt_of_le hv (Nat.pow_le_pow_right (by decide) (by omega))

theorem or_lt_two_pow {a b : Bits} {n : Nat} (ha : a.toNat < 2 ^ n) (hb : b.toNat < 2 ^ n) :
    (a ||| b).toNat < 2 ^ n := by
  rw [BitVec.toNat_or]
  exact Nat.or_lt_two_pow ha hb

theorem shiftLeft_lt_two_pow {a : Bits} {n r : Nat} (ha : a.toNat < 2 ^ n) : (a <<< r).toNat < 2 ^ (n + r) := by
  rw [BitVec.toNat_shiftLeft, Nat.shiftLeft_eq, Nat.pow_add]
  exact Nat.lt_of_le_of_lt (Nat.mod_le _ _) (Nat.mul_lt_mul_of_pos_right ha (Nat.two_pow_pos r))

theorem encodeWith_len (c : ConfigRegs) (p : BitString) :
    (encodeWith c p).len = BitVec.ofNat 16 (p.len.toNat + redundancy c) := by
  unfold encodeWith redundancy
  cases c.mode <;> rfl

/-- A codeword of a payload that fits is well formed (R44, R90). -/
theorem encodeWith_wellFormed {c : ConfigRegs} {cap : Nat} {p : BitString} (hcap : cap ≤ 1024)
    (hp : wellFormed cap p = true) (hfit : p.len.toNat + redundancy c ≤ cap)
    (hkey : c.mode = .crc → keyValid c.key = true) : wellFormed cap (encodeWith c p) = true := by
  rw [wellFormed_iff] at hp ⊢
  have hlen : (encodeWith c p).len.toNat = p.len.toNat + redundancy c := by
    rw [encodeWith_len, BitVec.toNat_ofNat, Nat.mod_eq_of_lt (by omega)]
  refine ⟨hlen ▸ hfit, ?_⟩
  rw [hlen]
  cases hm : c.mode with
  | parity =>
    simp only [encodeWith, redundancy, hm, parityEncode]
    refine or_lt_two_pow (shiftLeft_lt_two_pow hp.2) ?_
    rw [BitVec.toNat_ofNat]
    refine Nat.lt_of_le_of_lt (Nat.mod_le _ _) (Nat.lt_of_lt_of_le (Nat.mod_lt _ (by decide)) ?_)
    exact Nat.le_self_pow (by omega) 2
  | crc =>
    have hk := (keyValid_iff _).1 (hkey hm)
    simp only [encodeWith, redundancy, hm, crcEncode] at hfit ⊢
    have hs := shiftLeft_lt_two_pow (r := bitlen c.key.toNat - 1) hp.2
    refine or_lt_two_pow hs (Nat.lt_of_lt_of_le (polymod_lt hk.1 (by omega) hs) ?_)
    exact Nat.pow_le_pow_right (by decide) (by omega)

end Sys2Proof.Machine
end

