-- ==== Sys2Proof/Laws/State.lean ====
section
/-! SUPPORT. One lemma per field of State for each named update: what the field holds after it. -/

namespace Sys2Proof.Machine.State

open Sys2Proof Sys2Proof.Machine

@[simp] theorem setStatus_params (c : StatusCode) (s : State) : (s.setStatus c).params = s.params := rfl
@[simp] theorem setStatus_cfg (c : StatusCode) (s : State) : (s.setStatus c).cfg = s.cfg := rfl
@[simp] theorem setStatus_act (c : StatusCode) (s : State) : (s.setStatus c).act = s.act := rfl
@[simp] theorem setStatus_cfgValid (c : StatusCode) (s : State) : (s.setStatus c).cfgValid = s.cfgValid := rfl
@[simp] theorem setStatus_data (c : StatusCode) (s : State) : (s.setStatus c).data = s.data := rfl
@[simp] theorem setStatus_result (c : StatusCode) (s : State) : (s.setStatus c).result = s.result := rfl
@[simp] theorem setStatus_last (c : StatusCode) (s : State) : (s.setStatus c).last = c := rfl
@[simp] theorem setStatus_verdict (c : StatusCode) (s : State) : (s.setStatus c).verdict = s.verdict := rfl
@[simp] theorem setStatus_flags (c : StatusCode) (s : State) : (s.setStatus c).flags = s.flags := rfl
@[simp] theorem setStatus_base (c : StatusCode) (s : State) : (s.setStatus c).base = s.base := rfl
@[simp] theorem setStatus_next (c : StatusCode) (s : State) : (s.setStatus c).next = s.next := rfl
@[simp] theorem setStatus_txptr (c : StatusCode) (s : State) : (s.setStatus c).txptr = s.txptr := rfl
@[simp] theorem setStatus_buf (c : StatusCode) (s : State) : (s.setStatus c).buf = s.buf := rfl
@[simp] theorem setStatus_tmr (c : StatusCode) (s : State) : (s.setStatus c).tmr = s.tmr := rfl
@[simp] theorem setStatus_tmrRun (c : StatusCode) (s : State) : (s.setStatus c).tmrRun = s.tmrRun := rfl
@[simp] theorem setStatus_cs (c : StatusCode) (s : State) : (s.setStatus c).cs = s.cs := rfl
@[simp] theorem setStatus_txh (c : StatusCode) (s : State) : (s.setStatus c).txh = s.txh := rfl
@[simp] theorem setStatus_coll (c : StatusCode) (s : State) : (s.setStatus c).coll = s.coll := rfl
@[simp] theorem setStatus_bocnt (c : StatusCode) (s : State) : (s.setStatus c).bocnt = s.bocnt := rfl
@[simp] theorem setStatus_counters (c : StatusCode) (s : State) : (s.setStatus c).counters = s.counters := rfl
@[simp] theorem setStatus_inputs (c : StatusCode) (s : State) : (s.setStatus c).inputs = s.inputs := rfl
@[simp] theorem setStatus_out (c : StatusCode) (s : State) : (s.setStatus c).out = s.out := rfl

@[simp] theorem setVerdict_params (v : Bool) (s : State) : (s.setVerdict v).params = s.params := rfl
@[simp] theorem setVerdict_cfg (v : Bool) (s : State) : (s.setVerdict v).cfg = s.cfg := rfl
@[simp] theorem setVerdict_act (v : Bool) (s : State) : (s.setVerdict v).act = s.act := rfl
@[simp] theorem setVerdict_cfgValid (v : Bool) (s : State) : (s.setVerdict v).cfgValid = s.cfgValid := rfl
@[simp] theorem setVerdict_data (v : Bool) (s : State) : (s.setVerdict v).data = s.data := rfl
@[simp] theorem setVerdict_result (v : Bool) (s : State) : (s.setVerdict v).result = s.result := rfl
@[simp] theorem setVerdict_last (v : Bool) (s : State) : (s.setVerdict v).last = s.last := rfl
@[simp] theorem setVerdict_verdict (v : Bool) (s : State) : (s.setVerdict v).verdict = v := rfl
@[simp] theorem setVerdict_flags (v : Bool) (s : State) : (s.setVerdict v).flags = s.flags := rfl
@[simp] theorem setVerdict_base (v : Bool) (s : State) : (s.setVerdict v).base = s.base := rfl
@[simp] theorem setVerdict_next (v : Bool) (s : State) : (s.setVerdict v).next = s.next := rfl
@[simp] theorem setVerdict_txptr (v : Bool) (s : State) : (s.setVerdict v).txptr = s.txptr := rfl
@[simp] theorem setVerdict_buf (v : Bool) (s : State) : (s.setVerdict v).buf = s.buf := rfl
@[simp] theorem setVerdict_tmr (v : Bool) (s : State) : (s.setVerdict v).tmr = s.tmr := rfl
@[simp] theorem setVerdict_tmrRun (v : Bool) (s : State) : (s.setVerdict v).tmrRun = s.tmrRun := rfl
@[simp] theorem setVerdict_cs (v : Bool) (s : State) : (s.setVerdict v).cs = s.cs := rfl
@[simp] theorem setVerdict_txh (v : Bool) (s : State) : (s.setVerdict v).txh = s.txh := rfl
@[simp] theorem setVerdict_coll (v : Bool) (s : State) : (s.setVerdict v).coll = s.coll := rfl
@[simp] theorem setVerdict_bocnt (v : Bool) (s : State) : (s.setVerdict v).bocnt = s.bocnt := rfl
@[simp] theorem setVerdict_counters (v : Bool) (s : State) : (s.setVerdict v).counters = s.counters := rfl
@[simp] theorem setVerdict_inputs (v : Bool) (s : State) : (s.setVerdict v).inputs = s.inputs := rfl
@[simp] theorem setVerdict_out (v : Bool) (s : State) : (s.setVerdict v).out = s.out := rfl

@[simp] theorem setOut_params (o : BusOut) (s : State) : (s.setOut o).params = s.params := rfl
@[simp] theorem setOut_cfg (o : BusOut) (s : State) : (s.setOut o).cfg = s.cfg := rfl
@[simp] theorem setOut_act (o : BusOut) (s : State) : (s.setOut o).act = s.act := rfl
@[simp] theorem setOut_cfgValid (o : BusOut) (s : State) : (s.setOut o).cfgValid = s.cfgValid := rfl
@[simp] theorem setOut_data (o : BusOut) (s : State) : (s.setOut o).data = s.data := rfl
@[simp] theorem setOut_result (o : BusOut) (s : State) : (s.setOut o).result = s.result := rfl
@[simp] theorem setOut_last (o : BusOut) (s : State) : (s.setOut o).last = s.last := rfl
@[simp] theorem setOut_verdict (o : BusOut) (s : State) : (s.setOut o).verdict = s.verdict := rfl
@[simp] theorem setOut_flags (o : BusOut) (s : State) : (s.setOut o).flags = s.flags := rfl
@[simp] theorem setOut_base (o : BusOut) (s : State) : (s.setOut o).base = s.base := rfl
@[simp] theorem setOut_next (o : BusOut) (s : State) : (s.setOut o).next = s.next := rfl
@[simp] theorem setOut_txptr (o : BusOut) (s : State) : (s.setOut o).txptr = s.txptr := rfl
@[simp] theorem setOut_buf (o : BusOut) (s : State) : (s.setOut o).buf = s.buf := rfl
@[simp] theorem setOut_tmr (o : BusOut) (s : State) : (s.setOut o).tmr = s.tmr := rfl
@[simp] theorem setOut_tmrRun (o : BusOut) (s : State) : (s.setOut o).tmrRun = s.tmrRun := rfl
@[simp] theorem setOut_cs (o : BusOut) (s : State) : (s.setOut o).cs = s.cs := rfl
@[simp] theorem setOut_txh (o : BusOut) (s : State) : (s.setOut o).txh = s.txh := rfl
@[simp] theorem setOut_coll (o : BusOut) (s : State) : (s.setOut o).coll = s.coll := rfl
@[simp] theorem setOut_bocnt (o : BusOut) (s : State) : (s.setOut o).bocnt = s.bocnt := rfl
@[simp] theorem setOut_counters (o : BusOut) (s : State) : (s.setOut o).counters = s.counters := rfl
@[simp] theorem setOut_inputs (o : BusOut) (s : State) : (s.setOut o).inputs = s.inputs := rfl
@[simp] theorem setOut_out (o : BusOut) (s : State) : (s.setOut o).out = o := rfl

@[simp] theorem stopTimer_params (s : State) : (s.stopTimer).params = s.params := rfl
@[simp] theorem stopTimer_cfg (s : State) : (s.stopTimer).cfg = s.cfg := rfl
@[simp] theorem stopTimer_act (s : State) : (s.stopTimer).act = s.act := rfl
@[simp] theorem stopTimer_cfgValid (s : State) : (s.stopTimer).cfgValid = s.cfgValid := rfl
@[simp] theorem stopTimer_data (s : State) : (s.stopTimer).data = s.data := rfl
@[simp] theorem stopTimer_result (s : State) : (s.stopTimer).result = s.result := rfl
@[simp] theorem stopTimer_last (s : State) : (s.stopTimer).last = s.last := rfl
@[simp] theorem stopTimer_verdict (s : State) : (s.stopTimer).verdict = s.verdict := rfl
@[simp] theorem stopTimer_flags (s : State) : (s.stopTimer).flags = s.flags := rfl
@[simp] theorem stopTimer_base (s : State) : (s.stopTimer).base = s.base := rfl
@[simp] theorem stopTimer_next (s : State) : (s.stopTimer).next = s.next := rfl
@[simp] theorem stopTimer_txptr (s : State) : (s.stopTimer).txptr = s.txptr := rfl
@[simp] theorem stopTimer_buf (s : State) : (s.stopTimer).buf = s.buf := rfl
@[simp] theorem stopTimer_tmr (s : State) : (s.stopTimer).tmr = 0 := rfl
@[simp] theorem stopTimer_tmrRun (s : State) : (s.stopTimer).tmrRun = false := rfl
@[simp] theorem stopTimer_cs (s : State) : (s.stopTimer).cs = s.cs := rfl
@[simp] theorem stopTimer_txh (s : State) : (s.stopTimer).txh = s.txh := rfl
@[simp] theorem stopTimer_coll (s : State) : (s.stopTimer).coll = s.coll := rfl
@[simp] theorem stopTimer_bocnt (s : State) : (s.stopTimer).bocnt = s.bocnt := rfl
@[simp] theorem stopTimer_counters (s : State) : (s.stopTimer).counters = s.counters := rfl
@[simp] theorem stopTimer_inputs (s : State) : (s.stopTimer).inputs = s.inputs := rfl
@[simp] theorem stopTimer_out (s : State) : (s.stopTimer).out = s.out := rfl

@[simp] theorem loadTimer_params (s : State) : (s.loadTimer).params = s.params := rfl
@[simp] theorem loadTimer_cfg (s : State) : (s.loadTimer).cfg = s.cfg := rfl
@[simp] theorem loadTimer_act (s : State) : (s.loadTimer).act = s.act := rfl
@[simp] theorem loadTimer_cfgValid (s : State) : (s.loadTimer).cfgValid = s.cfgValid := rfl
@[simp] theorem loadTimer_data (s : State) : (s.loadTimer).data = s.data := rfl
@[simp] theorem loadTimer_result (s : State) : (s.loadTimer).result = s.result := rfl
@[simp] theorem loadTimer_last (s : State) : (s.loadTimer).last = s.last := rfl
@[simp] theorem loadTimer_verdict (s : State) : (s.loadTimer).verdict = s.verdict := rfl
@[simp] theorem loadTimer_flags (s : State) : (s.loadTimer).flags = s.flags := rfl
@[simp] theorem loadTimer_base (s : State) : (s.loadTimer).base = s.base := rfl
@[simp] theorem loadTimer_next (s : State) : (s.loadTimer).next = s.next := rfl
@[simp] theorem loadTimer_txptr (s : State) : (s.loadTimer).txptr = s.txptr := rfl
@[simp] theorem loadTimer_buf (s : State) : (s.loadTimer).buf = s.buf := rfl
@[simp] theorem loadTimer_tmr (s : State) : (s.loadTimer).tmr = s.act.timeout := rfl
@[simp] theorem loadTimer_tmrRun (s : State) : (s.loadTimer).tmrRun = true := rfl
@[simp] theorem loadTimer_cs (s : State) : (s.loadTimer).cs = s.cs := rfl
@[simp] theorem loadTimer_txh (s : State) : (s.loadTimer).txh = s.txh := rfl
@[simp] theorem loadTimer_coll (s : State) : (s.loadTimer).coll = s.coll := rfl
@[simp] theorem loadTimer_bocnt (s : State) : (s.loadTimer).bocnt = s.bocnt := rfl
@[simp] theorem loadTimer_counters (s : State) : (s.loadTimer).counters = s.counters := rfl
@[simp] theorem loadTimer_inputs (s : State) : (s.loadTimer).inputs = s.inputs := rfl
@[simp] theorem loadTimer_out (s : State) : (s.loadTimer).out = s.out := rfl

@[simp] theorem releaseHold_params (s : State) : (s.releaseHold).params = s.params := rfl
@[simp] theorem releaseHold_cfg (s : State) : (s.releaseHold).cfg = s.cfg := rfl
@[simp] theorem releaseHold_act (s : State) : (s.releaseHold).act = s.act := rfl
@[simp] theorem releaseHold_cfgValid (s : State) : (s.releaseHold).cfgValid = s.cfgValid := rfl
@[simp] theorem releaseHold_data (s : State) : (s.releaseHold).data = s.data := rfl
@[simp] theorem releaseHold_result (s : State) : (s.releaseHold).result = s.result := rfl
@[simp] theorem releaseHold_last (s : State) : (s.releaseHold).last = s.last := rfl
@[simp] theorem releaseHold_verdict (s : State) : (s.releaseHold).verdict = s.verdict := rfl
@[simp] theorem releaseHold_flags (s : State) : (s.releaseHold).flags = s.flags := rfl
@[simp] theorem releaseHold_base (s : State) : (s.releaseHold).base = s.base := rfl
@[simp] theorem releaseHold_next (s : State) : (s.releaseHold).next = s.next := rfl
@[simp] theorem releaseHold_txptr (s : State) : (s.releaseHold).txptr = s.txptr := rfl
@[simp] theorem releaseHold_buf (s : State) : (s.releaseHold).buf = s.buf := rfl
@[simp] theorem releaseHold_tmr (s : State) : (s.releaseHold).tmr = s.tmr := rfl
@[simp] theorem releaseHold_tmrRun (s : State) : (s.releaseHold).tmrRun = s.tmrRun := rfl
@[simp] theorem releaseHold_cs (s : State) : (s.releaseHold).cs = .idle := rfl
@[simp] theorem releaseHold_txh (s : State) : (s.releaseHold).txh = TxHold.none := rfl
@[simp] theorem releaseHold_coll (s : State) : (s.releaseHold).coll = s.coll := rfl
@[simp] theorem releaseHold_bocnt (s : State) : (s.releaseHold).bocnt = s.bocnt := rfl
@[simp] theorem releaseHold_counters (s : State) : (s.releaseHold).counters = s.counters := rfl
@[simp] theorem releaseHold_inputs (s : State) : (s.releaseHold).inputs = s.inputs := rfl
@[simp] theorem releaseHold_out (s : State) : (s.releaseHold).out = s.out := rfl

@[simp] theorem consumeInputs_params (s : State) : (s.consumeInputs).params = s.params := rfl
@[simp] theorem consumeInputs_cfg (s : State) : (s.consumeInputs).cfg = s.cfg := rfl
@[simp] theorem consumeInputs_act (s : State) : (s.consumeInputs).act = s.act := rfl
@[simp] theorem consumeInputs_cfgValid (s : State) : (s.consumeInputs).cfgValid = s.cfgValid := rfl
@[simp] theorem consumeInputs_data (s : State) : (s.consumeInputs).data = s.data := rfl
@[simp] theorem consumeInputs_result (s : State) : (s.consumeInputs).result = s.result := rfl
@[simp] theorem consumeInputs_last (s : State) : (s.consumeInputs).last = s.last := rfl
@[simp] theorem consumeInputs_verdict (s : State) : (s.consumeInputs).verdict = s.verdict := rfl
@[simp] theorem consumeInputs_flags (s : State) : (s.consumeInputs).flags = s.flags := rfl
@[simp] theorem consumeInputs_base (s : State) : (s.consumeInputs).base = s.base := rfl
@[simp] theorem consumeInputs_next (s : State) : (s.consumeInputs).next = s.next := rfl
@[simp] theorem consumeInputs_txptr (s : State) : (s.consumeInputs).txptr = s.txptr := rfl
@[simp] theorem consumeInputs_buf (s : State) : (s.consumeInputs).buf = s.buf := rfl
@[simp] theorem consumeInputs_tmr (s : State) : (s.consumeInputs).tmr = s.tmr := rfl
@[simp] theorem consumeInputs_tmrRun (s : State) : (s.consumeInputs).tmrRun = s.tmrRun := rfl
@[simp] theorem consumeInputs_cs (s : State) : (s.consumeInputs).cs = s.cs := rfl
@[simp] theorem consumeInputs_txh (s : State) : (s.consumeInputs).txh = s.txh := rfl
@[simp] theorem consumeInputs_coll (s : State) : (s.consumeInputs).coll = s.coll := rfl
@[simp] theorem consumeInputs_bocnt (s : State) : (s.consumeInputs).bocnt = s.bocnt := rfl
@[simp] theorem consumeInputs_counters (s : State) : (s.consumeInputs).counters = s.counters := rfl
@[simp] theorem consumeInputs_inputs (s : State) : (s.consumeInputs).inputs = s.inputs.tail := rfl
@[simp] theorem consumeInputs_out (s : State) : (s.consumeInputs).out = s.out := rfl

@[simp] theorem withCommandWord_params (w : Word) (s : State) : (s.withCommandWord w).params = s.params := rfl
@[simp] theorem withCommandWord_cfg (w : Word) (s : State) : (s.withCommandWord w).cfg = s.cfg := rfl
@[simp] theorem withCommandWord_act (w : Word) (s : State) : (s.withCommandWord w).act = s.act := rfl
@[simp] theorem withCommandWord_cfgValid (w : Word) (s : State) : (s.withCommandWord w).cfgValid = s.cfgValid := rfl
@[simp] theorem withCommandWord_data (w : Word) (s : State) : (s.withCommandWord w).data = s.data := rfl
@[simp] theorem withCommandWord_result (w : Word) (s : State) : (s.withCommandWord w).result = s.result := rfl
@[simp] theorem withCommandWord_last (w : Word) (s : State) : (s.withCommandWord w).last = s.last := rfl
@[simp] theorem withCommandWord_verdict (w : Word) (s : State) : (s.withCommandWord w).verdict = s.verdict := rfl
@[simp] theorem withCommandWord_flags (w : Word) (s : State) : (s.withCommandWord w).flags = s.flags := rfl
@[simp] theorem withCommandWord_base (w : Word) (s : State) : (s.withCommandWord w).base = s.base := rfl
@[simp] theorem withCommandWord_next (w : Word) (s : State) : (s.withCommandWord w).next = s.next := rfl
@[simp] theorem withCommandWord_txptr (w : Word) (s : State) : (s.withCommandWord w).txptr = s.txptr := rfl
@[simp] theorem withCommandWord_buf (w : Word) (s : State) : (s.withCommandWord w).buf = s.buf := rfl
@[simp] theorem withCommandWord_tmr (w : Word) (s : State) : (s.withCommandWord w).tmr = s.tmr := rfl
@[simp] theorem withCommandWord_tmrRun (w : Word) (s : State) : (s.withCommandWord w).tmrRun = s.tmrRun := rfl
@[simp] theorem withCommandWord_cs (w : Word) (s : State) : (s.withCommandWord w).cs = s.cs := rfl
@[simp] theorem withCommandWord_txh (w : Word) (s : State) : (s.withCommandWord w).txh = s.txh := rfl
@[simp] theorem withCommandWord_coll (w : Word) (s : State) : (s.withCommandWord w).coll = s.coll := rfl
@[simp] theorem withCommandWord_bocnt (w : Word) (s : State) : (s.withCommandWord w).bocnt = s.bocnt := rfl
@[simp] theorem withCommandWord_counters (w : Word) (s : State) : (s.withCommandWord w).counters = s.counters := rfl
@[simp] theorem withCommandWord_inputs (w : Word) (s : State) : (s.withCommandWord w).inputs = Inputs.commandWrite w :: s.inputs := rfl
@[simp] theorem withCommandWord_out (w : Word) (s : State) : (s.withCommandWord w).out = s.out := rfl

end Sys2Proof.Machine.State
end

