-- ==== Sys2Proof/Laws/Ops.lean ====
section
/-! SUPPORT. One lemma per shared operation that says everything it can do. -/

namespace Sys2Proof.Machine

open Sys2Proof

theorem andThen_eq_next {o : Host.Outcome State Fault Refusal} {f : State → Host.Outcome State Fault Refusal} {t : State} :
    andThen o f = .next t ↔ ∃ s, o = .next s ∧ f s = .next t := by
  cases o <;> simp [andThen]

@[simp] theorem andThen_next (s : State) (f : State → Host.Outcome State Fault Refusal) :
    andThen (.next s) f = f s := rfl

/-- The timer starts, or nothing happens (R115). -/
theorem timerAfterTx_cases (s : State) :
    (s.act.timeout ≠ 0 ∧ s.next ≠ s.base ∧ timerAfterTx s = s.loadTimer)
      ∨ (¬(s.act.timeout ≠ 0 ∧ s.next ≠ s.base) ∧ timerAfterTx s = s) := by
  unfold timerAfterTx
  split <;> tauto

/-- An empty window is left alone; otherwise the window is rewound and the timer stopped (R117). -/
theorem onTimeout_cases (s : State) :
    (s.next = s.base ∧ onTimeout s = s)
      ∨ (s.next ≠ s.base ∧ onTimeout s = { s with
          txptr := s.base, tmr := 0, tmrRun := false
          counters := { s.counters with tout := s.counters.tout + 1 }
          flags := { s.flags with tout := true } }) := by
  unfold onTimeout
  split <;> simp_all [State.stopTimer]

/-- A tick leaves a stopped timer alone, counts a running one down, or brings it to 0 and times out (R116). -/
theorem timerCountdown_cases (s : State) :
    (s.tmrRun = false ∧ timerCountdown s = s)
      ∨ (s.tmrRun = true ∧ s.tmr - 1 ≠ 0 ∧ timerCountdown s = { s with tmr := s.tmr - 1 })
      ∨ (s.tmrRun = true ∧ s.tmr - 1 = 0
          ∧ timerCountdown s = onTimeout { s with tmr := s.tmr - 1, tmrRun := false }) := by
  unfold timerCountdown
  cases h : s.tmrRun
  · exact .inl ⟨rfl, by simp⟩
  · by_cases h2 : s.tmr - 1 = 0
    · exact .inr (.inr ⟨rfl, h2, by rw [if_pos rfl]; exact if_pos h2⟩)
    · exact .inr (.inl ⟨rfl, h2, by rw [if_pos rfl]; exact (if_neg h2).trans (by simp)⟩)

/-- A tick counts a nonzero backoff down, and does nothing else (R109). -/
theorem backoffCountdown_cases (s : State) :
    (s.cs = .backoff ∧ s.bocnt ≠ 0 ∧ backoffCountdown s = { s with bocnt := s.bocnt - 1 })
      ∨ (¬(s.cs = .backoff ∧ s.bocnt ≠ 0) ∧ backoffCountdown s = s) := by
  unfold backoffCountdown
  split <;> tauto

/-- A collision aborts the frame at the retry cap, or sends the unit into Backoff (R106). -/
theorem collided_cases (draw : BitVec 10) (s : State) :
    let s1 := { s with counters := { s.counters with coll := s.counters.coll + 1 }, coll := collNext s.coll }
    (s.act.maxRetry ≠ 0 ∧ s.act.maxRetry.toNat < (collNext s.coll).toNat ∧ collided draw s = abort s1)
      ∨ (¬(s.act.maxRetry ≠ 0 ∧ s.act.maxRetry.toNat < (collNext s.coll).toNat)
          ∧ collided draw s = { s1 with cs := .backoff, bocnt := backoffTicks s.act draw (collNext s.coll) }) := by
  intro s1
  unfold collided
  simp only
  split <;> tauto

/-- A response is spurious, a Sent or a collision (R103). -/
theorem respond_cases (c : Bool) (draw : BitVec 10) (s : State) :
    (s.cs ≠ .transmitting ∧ respond c draw s = spurious s)
      ∨ (s.cs = .transmitting ∧ c = true ∧ respond c draw s = collided draw s)
      ∨ (s.cs = .transmitting ∧ c = false ∧ respond c draw s = sent s) := by
  unfold respond
  cases c <;> by_cases h : s.cs = .transmitting <;> simp [h]

/-- An attempt start latches the frame at TXPTR, or stops the model where BUF has no such frame (R102). -/
theorem txStart_cases (s : State) :
    (∃ p, Buffer.get s.buf s.txptr.toNat = some p ∧ txStart s = .next { s with
        txh := ⟨true, s.txptr, encodeWith s.act p⟩, txptr := s.txptr + 1, coll := 0, cs := .transmitting })
      ∨ (Buffer.get s.buf s.txptr.toNat = none ∧ txStart s = .fault (.bufferEntryMissing s.txptr.toNat)) := by
  unfold txStart
  cases Buffer.get s.buf s.txptr.toNat <;> simp

/-- The internal sub-step is a backoff exit, an attempt start, or nothing (R124). -/
theorem internal_cases (s : State) :
    (s.cs = .backoff ∧ s.bocnt = 0 ∧ internal s = .next { s with cs := .transmitting })
      ∨ (s.cs = .idle ∧ s.cfgValid = true ∧ s.txptr.toNat < s.next.toNat ∧ internal s = txStart s)
      ∨ (¬(s.cs = .backoff ∧ s.bocnt = 0) ∧ ¬(s.cs = .idle ∧ s.cfgValid = true ∧ s.txptr.toNat < s.next.toNat)
          ∧ internal s = .next s) := by
  unfold internal
  by_cases h : s.cs = .backoff ∧ s.bocnt = 0
  · exact .inl ⟨h.1, h.2, if_pos h⟩
  · by_cases h2 : s.cs = .idle ∧ s.cfgValid = true ∧ s.txptr.toNat < s.next.toNat
    · exact .inr (.inl ⟨h2.1, h2.2.1, h2.2.2, (if_neg h).trans (if_pos h2)⟩)
    · exact .inr (.inr ⟨h, h2, (if_neg h).trans (if_neg h2)⟩)

end Sys2Proof.Machine
end

