-- ==== Sys2Proof/Laws/Cycle.lean ====
section
/-! SUPPORT. What a cycle can do: its bus access, and its sub-steps in order. -/

namespace Sys2Proof.Machine

open Sys2Proof

/-- Sub-step 1 is no access, a refusal, a read, a command or a storage write, and nothing else (R56, R62, R63). -/
theorem busSubstep_cases (i : Inputs) (s : State) :
    (i.busValid = false ∧ busSubstep i s = .next (s.setOut BusOut.zero))
      ∨ (∃ e, i.busValid = true ∧ busTarget s.params i.busWrite i.busAddr i.busSize = .error e
          ∧ busSubstep i s = .next (s.setOut ⟨0, true⟩))
      ∨ (∃ r, i.busValid = true ∧ i.busWrite = false
          ∧ busTarget s.params i.busWrite i.busAddr i.busSize = .ok r
          ∧ busSubstep i s = .next (s.setOut ⟨readReg s r, false⟩))
      ∨ (i.busValid = true ∧ i.busWrite = true ∧ busTarget s.params i.busWrite i.busAddr i.busSize = .ok .cmd
          ∧ busSubstep i s = exec (decodeWord i.busWdata) (s.setOut BusOut.zero))
      ∨ (∃ r, r ≠ .cmd ∧ i.busValid = true ∧ i.busWrite = true
          ∧ busTarget s.params i.busWrite i.busAddr i.busSize = .ok r
          ∧ busSubstep i s = .next (writeReg (s.setOut BusOut.zero) r i.busWdata)) := by
  cases hv : i.busValid
  · exact .inl ⟨rfl, by simp [busSubstep, hv]⟩
  refine .inr ?_
  cases ht : busTarget s.params i.busWrite i.busAddr i.busSize with
  | error e => exact .inl ⟨e, rfl, rfl, by simp [busSubstep, hv, ht, State.setOut]⟩
  | ok r =>
    refine .inr ?_
    cases hw : i.busWrite
    · exact .inl ⟨r, rfl, rfl, rfl, by rw [hw] at ht; simp [busSubstep, hv, hw, ht, State.setOut]⟩
    · rw [hw] at ht
      refine .inr ?_
      by_cases hr : r = .cmd
      · subst hr
        exact .inl ⟨rfl, rfl, rfl, by simp [busSubstep, hv, hw, ht, executeWord]⟩
      · exact .inr ⟨r, hr, rfl, rfl, rfl, by simp [busSubstep, hv, hw, ht, hr]⟩

/-- A cycle is a reset, or its sub-steps in order (R124). -/
theorem runCycle_eq_next {i : Inputs} {s t : State} :
    runCycle i s = .next t ↔
      (i.rst = true ∧ t = resetAll s)
        ∨ (i.rst = false ∧ ∃ s1, busSubstep i s = .next s1 ∧ internal (tickSubstep i (respSubstep i s1)) = .next t) := by
  unfold runCycle restOfCycle
  cases i.rst
  · simp [andThen_eq_next]
  · simp [eq_comm]

theorem respSubstep_cases (i : Inputs) (s : State) :
    (i.respValid = false ∧ respSubstep i s = s)
      ∨ (i.respValid = true ∧ respSubstep i s = respond i.respCollision i.boDraw s) := by
  cases h : i.respValid <;> simp [respSubstep, h]

theorem tickSubstep_cases (i : Inputs) (s : State) :
    (i.tick = false ∧ tickSubstep i s = s)
      ∨ (i.tick = true ∧ tickSubstep i s = backoffCountdown (timerCountdown s)) := by
  cases h : i.tick <;> simp [tickSubstep, h]

end Sys2Proof.Machine
end

