-- ==== Sys2Proof/Laws/Params.lean ====
section
/-! SUPPORT. What the legal ranges of R8 give: the bounds as arithmetic facts, and that SEQ_INIT fits its register. -/

namespace Sys2Proof.Machine

open Sys2Proof

/-- The ranges of R8, one by one. -/
theorem params_legal_iff {p : Params} :
    p.legal = true ↔ 64 ≤ p.bmax ∧ p.bmax ≤ 1024 ∧ p.bmax % 32 = 0 ∧ 1 ≤ p.wmax ∧ p.wmax ≤ 255
      ∧ 2 ≤ p.seqW ∧ p.seqW ≤ 16 ∧ 1 ≤ p.seqInit ∧ p.seqInit ≤ 2 ^ p.seqW - 2 := by
  simp [Params.legal, and_assoc]

/-- Every legal number of sequence numbers lies between 4 and 65536. -/
theorem params_legal_seq_space {p : Params} (h : p.legal = true) : 4 ≤ 2 ^ p.seqW ∧ 2 ^ p.seqW ≤ 65536 := by
  have hp := params_legal_iff.1 h
  exact ⟨Nat.pow_le_pow_right (n := 2) (by decide) hp.2.2.2.2.2.1,
    Nat.pow_le_pow_right (n := 2) (by decide) hp.2.2.2.2.2.2.1⟩

/-- SEQ_INIT survives being stored in a sequence register. -/
theorem seqInit_toNat {p : Params} (h : p.legal = true) : (BitVec.ofNat 16 p.seqInit).toNat = p.seqInit := by
  have hp := params_legal_iff.1 h
  have hs := params_legal_seq_space h
  rw [BitVec.toNat_ofNat, Nat.mod_eq_of_lt (by omega)]

/-- The empty string is well formed for every capacity. -/
theorem empty_wellFormed (cap : Nat) : wellFormed cap BitString.empty = true := by
  simp [wellFormed, BitString.empty]

end Sys2Proof.Machine
end

