-- ==== Sys2Proof/Laws/PerInstr.lean ====
section
/-! SUPPORT. Statements made per instruction: a well-formed command's word is legal exactly when the command is not the illegal row. -/

namespace Sys2Proof.Laws

open Sys2Proof

/-- ACK's word as a number: the acknowledgment number in bits 31:16, 4 below it (R77, R78). -/
theorem encode_ack_toNat (arg : BitVec 16) : (Sys2Proof.encode (.ack arg)).toNat = arg.toNat * 65536 + 4 := by
  simp only [Sys2Proof.encode, BitVec.toNat_append]
  rw [← Nat.shiftLeft_add_eq_or_of_lt (by decide), ← Nat.shiftLeft_add_eq_or_of_lt (by decide), Nat.shiftLeft_eq,
    Nat.shiftLeft_eq]
  simp
  omega

namespace EncodingLegal

/-- R81 on the encoder: the word of a well-formed command is legal, and the word an illegal term stands for is not. -/
def Statement (i : Instr) : Prop := i.wf = true → legalWord (encode i) = (i != .illegal (encode i))

theorem nop : Statement .nop := fun _ => by decide
theorem encode : Statement .encode := fun _ => by decide
theorem verify : Statement .verify := fun _ => by decide
theorem send : Statement .send := fun _ => by decide

theorem ack (arg : BitVec 16) : Statement (.ack arg) := by
  intro _
  have hw := encode_ack_toNat arg
  have hne : (Instr.ack arg != .illegal (Sys2Proof.encode (.ack arg))) = true := by simp
  rw [hne]
  simp only [legalWord, hw, Bool.and_eq_true, Bool.or_eq_true, decide_eq_true_eq, beq_iff_eq]
  omega

theorem timeout : Statement .timeout := fun _ => by decide
theorem configure : Statement .configure := fun _ => by decide
theorem teardown : Statement .teardown := fun _ => by decide

theorem illegal (w : Word) : Statement (.illegal w) := by
  intro h
  simpa [Instr.wf, Sys2Proof.encode] using h

end EncodingLegal

end Sys2Proof.Laws
end

