-- ==== Sys2Proof/Tests/Slice0.lean ====
section
/-! SUPPORT. Tests with results taken from the spec's worked examples and vectors (95_test_vectors.md), and one witness for each obligation that has hypotheses. -/

-- Some hundred kernel evaluations started at once run out of threads, so they run one after the other.
set_option Elab.async false

namespace Sys2Proof.Tests.Slice0

open Sys2Proof Sys2Proof.Machine Sys2Proof.Safety

/-! ### Sample states -/

/-- The configuration of P2 and P3 to P7: CRC with key 0xD, window 3, timeout 3. -/
def crcD : ConfigRegs :=
  { mode := .crc, boMode := .immediate, win := 3, timeout := 3, maxRetry := 0, slot := 0, key := 0xD }

/-- Parity mode with the same window and timeout. -/
def parity : ConfigRegs := { crcD with mode := .parity, key := 0 }

/-- Configured, nothing sent. -/
def session (c : ConfigRegs) : State := { State.reset with cfg := c, act := c, cfgValid := true }

/-- Configured, with DATA holding (len, v). -/
def withData (c : ConfigRegs) (len : BitVec 16) (v : Bits) : State := { session c with data := ⟨len, v⟩ }

/-- Frames 1 and 2 sent and outstanding, the unit idle, the timer at `tmr`. -/
def outstanding (c : ConfigRegs) (tmr : Word) : State :=
  { session c with next := 3, txptr := 3, buf := [(1, ⟨4, 1⟩), (2, ⟨4, 2⟩)], tmr := tmr, tmrRun := tmr != 0 }

/-- Frame 1, "1011", presented on the TX port under key 0xD. -/
def onAir (c : ConfigRegs) : State :=
  { session c with next := 2, txptr := 2, buf := [(1, ⟨4, 0xB⟩)], cs := .transmitting, txh := ⟨true, 1, ⟨7, 0x5C⟩⟩ }

/-- P8: SEQ_W = 2, with frames 1 and 2 acknowledged and no number left. -/
def exhausted : State :=
  { State.resetFor { Params.default with seqW := 2 } with
    cfg := crcD, act := crcD, cfgValid := true, data := ⟨1, 1⟩, base := 3, next := 3, txptr := 3 }

/-- A state whose next cycle has the inputs i. -/
def facing (s : State) (i : Inputs) : State := { s with inputs := [i] }

/-- A bus access of one word. -/
def access (write : Bool) (addr : BitVec 12) (wdata : Word) : Inputs :=
  Inputs.access Inputs.idle write addr 4 wdata

/-- The state an outcome gives; the state given for a stop, which no test below meets. -/
def after (o : Host.Outcome State Fault Refusal) (d : State) : State :=
  match o with
  | .next s => s
  | _ => d

/-- The outcome is a next state. -/
def answers (o : Host.Outcome State Fault Refusal) : Bool :=
  match o with
  | .next _ => true
  | _ => false

theorem exists_of_answers {o : Host.Outcome State Fault Refusal} (h : answers o = true) : ∃ t, o = .next t := by
  cases o with
  | next s => exact ⟨s, rfl⟩
  | fault _ => cases h
  | refused _ => cases h

/-! ### Well-formedness and decoding -/

theorem test_wf_refuses_illegal_term_with_legal_word : (Instr.illegal 0x00000005).wf = false := by decide
theorem test_wf_refuses_illegal_term_with_ack_word : (Instr.illegal 0xFFFF0004).wf = false := by decide
theorem test_wf_accepts_illegal_term_with_illegal_word : (Instr.illegal 0x00010001).wf = true := by decide

/-- V-CMD: the words of the eight commands, bit by bit. -/
theorem test_decode_nop : decodeWord 0b0000000000000000_000000000000_0000 = .nop := by decide
theorem test_decode_encode : decodeWord 0b0000000000000000_000000000000_0001 = .encode := by decide
theorem test_decode_verify : decodeWord 0b0000000000000000_000000000000_0010 = .verify := by decide
theorem test_decode_send : decodeWord 0b0000000000000000_000000000000_0011 = .send := by decide
theorem test_decode_ack : decodeWord 0b0000000000000001_000000000000_0100 = .ack 1 := by decide
theorem test_decode_ack_max : decodeWord 0b1111111111111111_000000000000_0100 = .ack 65535 := by decide
theorem test_decode_timeout : decodeWord 0b0000000000000000_000000000000_0101 = .timeout := by decide
theorem test_decode_configure : decodeWord 0b0000000000000000_000000000000_0110 = .configure := by decide
theorem test_decode_teardown : decodeWord 0b0000000000000000_000000000000_0111 = .teardown := by decide

/-- V-CMD: the illegal words, one per cause. -/
theorem test_decode_illegal :
    [0x00000008, 0x0000000F, 0x00000010, 0x00008003, 0x00000013, 0x00010001, 0x00010003, 0x80000007, 0x00010014].all
      (fun w => decodeWord w == .illegal w) = true := by decide

/-- R59, R83: lane 0 carries bits 7:0. -/
theorem test_decode_bytes : decode [0x04, 0x00, 0x02, 0x00] = .ok (.ack 2) := by rfl
theorem test_decode_three_bytes : decode [0x04, 0x00, 0x02] = .error (.notOneWord 3) := by rfl
theorem test_decode_table_word : decodeTableWord 32 0x00020004 = some (.ack 2) := by decide
theorem test_decode_table_word_too_long : decodeTableWord 40 0x00020004 = none := by decide

/-! ### The checker -/

/-- E1: (7, 0x55) under key 0xD is (10, 0x2AB). -/
theorem test_crc_encode_e1 : crcEncode 0xD ⟨7, 0x55⟩ = ⟨10, 0x2AB⟩ := by decide +kernel
/-- V-CRC: the catalogue value CRC-16/XMODEM of "123456789", 0x31C3. -/
theorem test_crc_encode_xmodem :
    crcEncode 0x11021 ⟨72, 0x313233343536373839⟩ = ⟨88, 0x31323334353637383931C3⟩ := by decide +kernel
/-- E1: the source's printed codeword is rejected; V-CRC: "000" has length r and is accepted, "00" is too short. -/
theorem test_crc_verify : [(⟨10, 0x2AB⟩ : BitString), ⟨10, 0x2AE⟩, ⟨10, 0x0AB⟩, ⟨3, 0⟩, ⟨2, 0⟩].map (crcVerify 0xD)
    = [true, false, false, true, false] := by decide +kernel
/-- V-PAR. -/
theorem test_parity_encode : [(⟨0, 0⟩ : BitString), ⟨1, 1⟩, ⟨3, 7⟩, ⟨7, 0x55⟩].map parityEncode
    = [⟨1, 0⟩, ⟨2, 3⟩, ⟨4, 0xF⟩, ⟨8, 0xAA⟩] := by decide +kernel
/-- V-PAR: "", "0", "1", "10101010", one, two and three flips of it. -/
theorem test_parity_verify :
    [(⟨0, 0⟩ : BitString), ⟨1, 0⟩, ⟨1, 1⟩, ⟨8, 0xAA⟩, ⟨8, 0xAB⟩, ⟨8, 0xA9⟩, ⟨8, 0xAD⟩].map parityVerify
    = [false, true, false, true, false, true, false] := by decide +kernel
/-- V-CRC, key validity. -/
theorem test_key_validity : [0x0, 0x1, 0x2, 0x8, 0x8000000000000000, 0x3, 0xD, 0x8000000000000001].map keyValid
    = [false, false, false, false, false, true, true, true] := by decide +kernel
/-- R60's examples. -/
theorem test_packing : pack [true, false, true, false, true, false, true] = ⟨7, 0x55⟩
    ∧ pack [false, false, false, true] = ⟨4, 1⟩ ∧ pack [] = ⟨0, 0⟩ := by decide +kernel
/-- V-CRC, capacity: 253 bits fit under key 0xD, 254 do not. -/
theorem test_encode_capacity :
    (after (exec .encode (withData crcD 253 0)) State.reset).result.len = 256
      ∧ (after (exec .encode (withData crcD 254 0)) State.reset).last = .malformedInput := by decide +kernel

/-! ### The sender -/

/-- V-ACK, row 1: BASE 1 NEXT 3, ACK 1 restarts the timer for the rest. -/
theorem test_ack_partial :
    let t := after (exec (.ack 1) (outstanding crcD 1)) State.reset
    t.base = 2 ∧ t.tmr = 3 ∧ t.tmrRun = true ∧ t.buf = [(2, ⟨4, 2⟩)] := by decide +kernel
/-- V-ACK, row 2: ACK of the last frame cancels the timer. -/
theorem test_ack_all :
    let t := after (exec (.ack 2) (outstanding crcD 1)) State.reset
    t.base = 3 ∧ t.tmr = 0 ∧ t.tmrRun = false ∧ t.buf = [] := by decide +kernel
/-- V-SEND: (4, 0x1) under key 0xD starts in its own cycle as 1:7:0xD. -/
theorem test_send_starts_in_its_cycle :
    let t := after (step ((withData crcD 4 1).withFetchWord 32 0x3)) State.reset
    t.last = .ok ∧ t.next = 2 ∧ t.txptr = 2 ∧ txPort t = ⟨true, 1, 7, 0xD⟩ := by decide +kernel
/-- V-SEND: SEQ_W = 2 and NEXT = 3. -/
theorem test_send_exhausted : (after (exec .send exhausted) State.reset).last = .seqExhausted := by decide +kernel
/-- V-TMR: the tick at TMR = 1 times out and the frame at BASE starts in the same cycle. -/
theorem test_timer_expiry :
    let t := after (step (facing (outstanding crcD 1) tickOnly)) State.reset
    t.tmr = 0 ∧ t.flags.tout = true ∧ t.txptr = 2 ∧ (txPort t).seq = 1 := by decide +kernel
/-- R120's corner case: an empty window leaves F_TOUT alone. -/
theorem test_timeout_empty : exec .timeout (session crcD) = .next { session crcD with last := .ok } := rfl

/-! ### The CSMA/CD controller -/

/-- V-BO: modes, counts, draws and slots of the table. -/
theorem test_backoff_ticks :
    backoffTicks crcD 1023 1 = 0
      ∧ [((1 : BitVec 16), (1 : BitVec 10), (2 : BitVec 16)), (1, 1022, 2), (2, 7, 2), (3, 1023, 5), (10, 1023, 1),
          (16, 1023, 0xFFFF), (4, 9, 0)].map (fun e => backoffTicks { crcD with boMode := .beb, slot := e.2.2 } e.2.1 e.1)
        = [2, 0, 6, 35, 1023, 0x3FEFC01, 0] := by decide +kernel
/-- V-BO, retry cap 1 at the second collision. -/
theorem test_abort_at_cap :
    let t := respond true 0 { onAir { crcD with maxRetry := 1 } with coll := 1 }
    t.flags.abort = true ∧ t.counters.abort = 1 ∧ t.cs = .idle ∧ t.tmr = 3 ∧ t.buf = [(1, ⟨4, 0xB⟩)] := by decide +kernel
/-- V-RESP: `resp ok` while Transmitting starts the timer. -/
theorem test_sent :
    let t := after (step (facing (onAir crcD) (respOnly false 0))) State.reset
    t.counters.txok = 1 ∧ t.tmr = 3 ∧ t.cs = .idle ∧ txPort t = ⟨false, 0, 0, 0⟩ := by decide +kernel

/-! ### The bus, reset and session control -/

/-- V-BUS: the refused accesses of P9 cycles 34 to 40, and the accepted read of CMD. -/
theorem test_bus_refusals :
    [busTarget Params.default false 0x001 4, busTarget Params.default false 0x004 1, busTarget Params.default true 0x008 4,
      busTarget Params.default true 0x010 4, busTarget Params.default false 0x02C 4,
      busTarget Params.default false 0x1A0 4, busTarget Params.default false 0x1FC 4].map
        (fun o => match o with | .ok _ => none | .error e => some e)
      = [some .misaligned, some .badSize, some .readOnly, some .readOnly, some .unmapped, some .unmapped, some .unmapped] := by
  decide +kernel
theorem test_bus_read_cmd : busTarget Params.default false 0x000 4 = .ok .cmd ∧ readReg State.reset .cmd = 0 := by
  decide +kernel
/-- V-BUS: writes of reserved bits. -/
theorem test_reserved_bits : readReg (writeReg State.reset .cfgCtrl 0xFFFFFFFF) .cfgCtrl = 3
    ∧ readReg (writeReg State.reset .dataLen 0x12345) .dataLen = 0x2345 := by decide +kernel
/-- V-RST and P8: PARAM and STATE. -/
theorem test_param_and_state : readReg State.reset .param = 0x40081008 ∧ readReg State.reset .state = 0
    ∧ readReg (session crcD) .state = 0x80 ∧ readReg exhausted .param = 0x40080208 := by decide +kernel
/-- P9 cycles 1 and 6: an unconfigured SEND, then ACK 0. -/
theorem test_unconfigured :
    readReg (after (exec .send State.reset) State.reset) .status = 0x5
      ∧ readReg (after (exec (.ack 0) State.reset) State.reset) .status = 0x103 := by decide +kernel
/-- R127's example with key 0x8: InvalidKey, and CFG_VALID as it was. -/
theorem test_configure_bad_key :
    exec .configure { State.reset with cfg := { crcD with key := 8 } }
      = .next { State.reset with cfg := { crcD with key := 8 }, last := .invalidKey } := rfl
theorem test_configure_installs :
    exec .configure { State.reset with cfg := crcD } = .next (session crcD) := rfl
/-- P7 cycle 20. -/
theorem test_teardown : exec .teardown (onAir crcD) = .next (session crcD) := rfl
/-- R126's example. -/
theorem test_nop : exec .nop { State.reset with last := .invalidAck } = .next State.reset := rfl
/-- The step runs the word it is given, and an illegal one only writes LAST. -/
theorem test_step_illegal :
    readReg (after (step (State.reset.withFetchWord 32 0x10001)) State.reset) .status = 0x7 := by decide +kernel

/-! ### Host program text and the environment -/

theorem test_text_ack_and_tick :
    stmtOf Params.default "cmd ACK 1 & tick" = some (.line [.bus (.command 0x00010004), .tick]) := by decide +kernel
theorem test_text_config : stmtOf Params.default "config mode=crc, bo=beb, win=2, slot=2, key=0xD"
    = some (.config { bo := .beb, win := 2, slot := 2, key := 0xD }) := by decide +kernel
/-- R11, R85: 0 and 1 between one pair of quotes. -/
theorem test_text_bits : stmtOf Params.default "bits \"1011\"" = some (.bits [true, false, true, true])
    ∧ bitsOf "\"\"".toList = some [] := by decide +kernel
/-- Log entry 10: an inner quote or a tail is rejected. -/
theorem test_text_bits_malformed :
    ["\"01\"x\"", "\"01\"2", "\"0\"x\"", "\"01", "\""].all (fun t => bitsOf t.toList == none) = true := by decide +kernel
/-- V-RX: frame (1, 7, 0x0D) is delivered as "0001"; (1, 7, 0x0C) is dropped; (3, 7, 0x1A) with expected 2 re-emits 1. -/
theorem test_receiver :
    onFrame crcD true 1 ⟨1, ⟨7, 0x0D⟩⟩ = (.deliver ⟨4, 1⟩ 1, 2) ∧ onFrame crcD true 1 ⟨1, ⟨7, 0x0C⟩⟩ = (.drop, 1)
      ∧ onFrame crcD true 2 ⟨3, ⟨7, 0x1A⟩⟩ = (.dropReAck 1, 2) := by decide +kernel

/-! ### Witnesses: concrete inputs that meet every hypothesis of an obligation -/

theorem inv_reset : Invariants State.reset := by constructor <;> decide +kernel
theorem inv_session : Invariants (session crcD) := by constructor <;> decide +kernel
theorem inv_outstanding : Invariants (outstanding crcD 1) := by constructor <;> decide +kernel
theorem inv_onAir : Invariants (onAir crcD) := by constructor <;> decide +kernel

theorem witness_DecodeInvertsEncode : (Instr.ack 0xFFFF).wf = true ∧ (Instr.illegal 8).wf = true := by decide
theorem witness_EncodeInvertsDecode : ([0, 0, 0] : List Byte).length ≠ 4 ∧ ([] : List Byte).length ≠ 4
    ∧ ([4, 0, 2, 0] : List Byte).length = 4 := by decide
theorem witness_LegalWordIsOfExactlyOneRow : legalWord 0xFFFF0004 = true ∧ legalWord 0x7 = true
    ∧ legalWord 0x8 = false ∧ legalWord 0x14 = false ∧ legalWord 0x10007 = false := by decide
theorem witness_StepRunsTheDecodedCommand :
    (facing State.reset (access true 0 0x3)).inputs = access true 0 0x3 :: []
      ∧ accesses Params.default (access true 0 0x3) true .cmd ∧ (Instr.illegal 8).wf = true ∧ 0xFFFFFFFF < 2 ^ 32 := by
  unfold accesses; decide +kernel
theorem witness_ResetCycleRestoresEveryElement :
    (onAir crcD).params.legal = true
      ∧ (facing (onAir crcD) { Inputs.idle with rst := true }).inputs = { Inputs.idle with rst := true } :: [] := by
  decide +kernel
theorem witness_ResetStateMeetsTheInvariants :
    Params.legal ⟨64, 1, 2, 1⟩ = true ∧ Params.legal ⟨1024, 255, 16, 65534⟩ = true := by decide
theorem witness_EveryStepKeepsTheInvariants : ∃ t, Invariants (onAir crcD) ∧ step (onAir crcD) = .next t :=
  (exists_of_answers (by decide +kernel)).imp fun _ h => ⟨inv_onAir, h⟩
theorem witness_NoStepStopsUnderTheInvariants : Invariants (outstanding crcD 1) := inv_outstanding
theorem witness_QuietCycleChangesNothing : Invariants (onAir crcD) ∧ quiet (onAir crcD).currentInputs := by
  refine ⟨inv_onAir, ?_⟩
  unfold quiet
  decide
theorem witness_NoStepChangesTheParameters : ∃ t, step State.reset = .next t := exists_of_answers (by decide +kernel)

theorem witness_PolymodIsThePolynomialRemainder :
    1024 ≤ 1024 ∧ (BitVec.allOnes 1024).toNat < 2 ^ 1024 ∧ 2 ≤ bitlen (0x8000000000000001 : BitVec 64).toNat
      ∧ (1 : Bits).toNat < 2 ^ 1 ∧ 1 ≤ bitlen (0xD : BitVec 64).toNat - 1 := by decide +kernel
theorem witness_CrcEncodeIsDivisionOfTheCharacters :
    let key := [true, false, true]
    let payload := [true, false, true, false, true, false, true]
    1 ≤ key.length ∧ key.length ≤ 63 ∧ payload.length + key.length ≤ 1024 := by decide
theorem witness_PackingPutsTheFirstCharacterHighest :
    [true, false].length ≤ 1024 ∧ 1 < [true, false].length ∧ [true, false].length ≤ 2 := by decide
theorem witness_VerifyAcceptsEveryCodeword :
    wellFormed 256 ⟨253, 1⟩ = true ∧ (crcD.mode = .crc → keyValid crcD.key = true) ∧ 253 + redundancy crcD ≤ 256
      ∧ wellFormed 256 ⟨255, 1⟩ = true ∧ (parity.mode = .crc → keyValid parity.key = true)
      ∧ 255 + redundancy parity ≤ 256 := by decide +kernel
theorem witness_CrcRejectsEverySingleBitFlip :
    wellFormed 256 ⟨253, 1⟩ = true ∧ keyValid 0xD = true ∧ 253 + (bitlen (0xD : BitVec 64).toNat - 1) ≤ 256
      ∧ 255 < (crcEncode 0xD ⟨253, 1⟩).len.toNat := by decide +kernel
theorem witness_ParityDetectsExactlyTheOddFlips :
    wellFormed 256 ⟨255, 1⟩ = true ∧ 255 + 1 ≤ 256
      ∧ ((1 : Bits) <<< 255) >>> (parityEncode ⟨255, 1⟩).len.toNat = 0 := by decide +kernel

/-- One state for each clause of ENCODE. -/
theorem witness_EncodeWritesTheCodewordToResult :
    State.reset.cfgValid = false
      ∧ (session crcD).cfgValid = true ∧ operandOk (withData crcD 3 0xF) = false
      ∧ operandOk (withData crcD 254 0) = true ∧ 256 < 254 + redundancy crcD
      ∧ operandOk (withData crcD 253 1) = true ∧ crcD.mode = .crc ∧ 253 + (bitlen crcD.key.toNat - 1) ≤ 256
      ∧ operandOk (withData parity 255 1) = true ∧ parity.mode = .parity ∧ 255 + 1 ≤ 256
      ∧ (session crcD).data = BitString.empty ∧ redundancy crcD ≤ 256 := by decide +kernel
/-- One state for each clause of VERIFY. -/
theorem witness_VerifyWritesTheVerdict :
    State.reset.cfgValid = false
      ∧ (session crcD).cfgValid = true ∧ operandOk (withData crcD 257 0) = false
      ∧ operandOk (withData crcD 2 3) = true ∧ 2 < redundancy crcD
      ∧ operandOk (withData crcD 256 1) = true ∧ redundancy crcD ≤ 256 ∧ crcD.mode = .crc
      ∧ operandOk (withData parity 1 1) = true ∧ redundancy parity ≤ 1 ∧ parity.mode = .parity
      ∧ operandOk (withData crcD 3 0) = true ∧ (withData crcD 3 0).data.bits = 0 ∧ redundancy crcD ≤ 3 := by
  decide +kernel

theorem witness_SendQueuesThePayloadUnderNext :
    let s := withData crcD 253 1
    Invariants s ∧ s.cfgValid = true ∧ operandOk s = true ∧ s.data.len.toNat + redundancy s.act ≤ s.params.bmax
      ∧ s.next.toNat - s.base.toNat < s.act.win.toNat ∧ s.next.toNat ≠ s.params.seqLimit :=
  ⟨by constructor <;> decide +kernel, by decide +kernel⟩
/-- One state for each error of SEND. -/
theorem witness_SendReportsTheFirstErrorOnly :
    let full := { outstanding { crcD with win := 2 } 0 with data := ⟨4, 4⟩ }
    State.reset.cfgValid = false
      ∧ (withData crcD 3 0xF).cfgValid = true ∧ operandOk (withData crcD 3 0xF) = false
      ∧ operandOk (withData crcD 254 0) = true ∧ 256 < 254 + redundancy crcD
      ∧ full.cfgValid = true ∧ operandOk full = true ∧ full.data.len.toNat + redundancy full.act ≤ full.params.bmax
      ∧ full.act.win.toNat ≤ full.next.toNat - full.base.toNat
      ∧ exhausted.cfgValid = true ∧ operandOk exhausted = true
      ∧ exhausted.data.len.toNat + redundancy exhausted.act ≤ exhausted.params.bmax
      ∧ exhausted.next.toNat - exhausted.base.toNat < exhausted.act.win.toNat
      ∧ exhausted.next.toNat = exhausted.params.seqLimit := by decide +kernel
/-- The first and the last number of the window. -/
theorem witness_AckInsideTheWindowIsCumulative :
    let s := outstanding crcD 1
    Invariants s ∧ (s.base.toNat ≤ 1 ∧ 1 < s.next.toNat) ∧ (s.base.toNat ≤ 2 ∧ 2 < s.next.toNat) :=
  ⟨inv_outstanding, by decide, by decide⟩
theorem witness_AckOutsideTheWindowIsReported :
    let s := outstanding crcD 1
    ((0 : BitVec 16).toNat < s.base.toNat) ∧ (s.next.toNat ≤ (3 : BitVec 16).toNat) := by decide
theorem witness_TimeoutRewindsTheTransmitPointer :
    (session crcD).next = (session crcD).base ∧ (outstanding crcD 1).next ≠ (outstanding crcD 1).base := by decide
theorem witness_TimerExpiresAtTheLastTick :
    let s := { outstanding crcD 3 with inputs := List.replicate 3 tickOnly ++ [] }
    Invariants s ∧ s.tmrRun = true ∧ s.tmr.toNat = 2 + 1 ∧ s.inputs = List.replicate (2 + 1) tickOnly ++ [] :=
  ⟨by constructor <;> decide +kernel, by decide +kernel⟩
/-- The window emptied; frames left with ACT_TIMEOUT 3; frames left with ACT_TIMEOUT 1. -/
theorem witness_AckWinsOverExpiryInOneCycle :
    let s := fun (c : ConfigRegs) (a : BitVec 16) =>
      facing (outstanding c 1) { Inputs.commandWrite (encode (.ack a)) with tick := true }
    let one := { crcD with timeout := 1 }
    (Invariants (s crcD 2) ∧ (s crcD 2).tmrRun = true ∧ (s crcD 2).tmr = 1 ∧ 1 ≤ 2 ∧ 2 < (s crcD 2).next.toNat
        ∧ (2 : BitVec 16) + 1 = (s crcD 2).next)
      ∧ (Invariants (s crcD 1) ∧ (1 : BitVec 16) + 1 ≠ (s crcD 1).next ∧ crcD.timeout ≠ 1)
      ∧ (Invariants (s one 1) ∧ (1 : BitVec 16) + 1 ≠ (s one 1).next ∧ one.timeout = 1) :=
  ⟨⟨by constructor <;> decide +kernel, by decide +kernel⟩, ⟨by constructor <;> decide +kernel, by decide +kernel⟩,
    ⟨by constructor <;> decide +kernel, by decide +kernel⟩⟩
/-- The unit idle, and a frame on the TX port. -/
theorem witness_TimeoutResendsTheWindowInOrder :
    let s := { outstanding crcD 1 with
      inputs := Inputs.commandWrite (encode .timeout) :: (List.replicate (0 + 1) (respOnly false 0) ++ []) }
    let u := { onAir crcD with
      inputs := Inputs.commandWrite (encode .timeout) :: (List.replicate (1 + 0) (respOnly false 0) ++ []) }
    (Invariants s ∧ s.cs = .idle ∧ 1 < s.next.toNat - s.base.toNat)
      ∧ (Invariants u ∧ u.cs = .transmitting ∧ 0 < u.next.toNat - u.base.toNat) :=
  ⟨⟨by constructor <;> decide +kernel, by decide +kernel⟩, ⟨by constructor <;> decide +kernel, by decide +kernel⟩⟩
/-- A SEND, which moves NEXT, and the three events that start a new session. -/
theorem witness_SequenceNumbersOnlyGrowInASession :
    let send := facing (withData crcD 4 1) (access true 0 3)
    let down := facing (outstanding crcD 1) (access true 0 7)
    let conf := facing (outstanding crcD 1) (access true 0 6)
    let rst := facing (outstanding crcD 1) { Inputs.idle with rst := true }
    (Invariants send ∧ answers (step send) = true ∧ (after (step send) send).next = 2)
      ∧ (Invariants down ∧ answers (step down) = true ∧ (after (step down) down).next = 1)
      ∧ (Invariants conf ∧ answers (step conf) = true ∧ (after (step conf) conf).next = 1)
      ∧ (Invariants rst ∧ answers (step rst) = true ∧ (after (step rst) rst).next = 1) := by
  refine ⟨⟨?_, ?_⟩, ⟨?_, ?_⟩, ⟨?_, ?_⟩, ⟨?_, ?_⟩⟩ <;> first | decide +kernel | (constructor <;> decide +kernel)
theorem witness_BufferedPayloadsAreNeverMutated :
    let s := outstanding crcD 1
    let t := after (step s) State.reset
    Invariants s ∧ step s = .next t ∧ Buffer.get s.buf 2 = some ⟨4, 2⟩ ∧ Buffer.get t.buf 2 = some ⟨4, 2⟩ :=
  ⟨inv_outstanding, rfl, by decide +kernel, by decide +kernel⟩

theorem witness_AttemptStartLatchesTheFrameAtTxptr :
    let s := { outstanding crcD 1 with txptr := 1 }
    WindowInvariant s ∧ BufferInvariant s ∧ s.cs = .idle ∧ s.cfgValid = true ∧ s.txptr.toNat < s.next.toNat := by
  decide +kernel
theorem witness_AcceptedSendIsPresentedInItsCycle :
    let s := withData crcD 4 1
    Invariants s ∧ s.cs = .idle ∧ s.cfgValid = true ∧ operandOk s = true
      ∧ s.data.len.toNat + redundancy s.act ≤ s.params.bmax ∧ s.next.toNat - s.base.toNat < s.act.win.toNat
      ∧ s.next.toNat ≠ s.params.seqLimit :=
  ⟨by constructor <;> decide +kernel, by decide +kernel⟩
theorem witness_SentEndsTheAttemptAndStartsTheTimer : (onAir crcD).cs = .transmitting := rfl
/-- Unbounded, and at the last collision the cap allows; immediate and BEB. -/
theorem witness_CollisionBelowTheCapBacksOff :
    let capped := { onAir { crcD with maxRetry := 2, boMode := .beb, slot := 2 } with coll := 1 }
    (onAir crcD).cs = .transmitting ∧ (onAir crcD).act.maxRetry = 0 ∧ (onAir crcD).act.boMode = .immediate
      ∧ capped.cs = .transmitting ∧ min (capped.coll.toNat + 1) 0xFFFF ≤ capped.act.maxRetry.toNat
      ∧ capped.act.boMode = .beb := by decide +kernel
theorem witness_CollisionPastTheCapAborts :
    let s := { onAir { crcD with maxRetry := 1 } with coll := 1 }
    s.cs = .transmitting ∧ s.act.maxRetry ≠ 0 ∧ s.act.maxRetry.toNat < min (s.coll.toNat + 1) 0xFFFF := by
  decide +kernel
theorem witness_SpuriousResponseOnlySetsItsFlag : (session crcD).cs ≠ .transmitting := by decide
theorem witness_UnboundedCollisionsNeverEndTheAttempt :
    let s := { onAir crcD with inputs := List.replicate 2 (respOnly true 0) ++ [] }
    Invariants s ∧ s.cs = .transmitting ∧ s.act.boMode = .immediate ∧ s.act.maxRetry = 0 :=
  ⟨by constructor <;> decide +kernel, by decide +kernel⟩
theorem witness_RetryCapAbortsAtTheNextCollision :
    let s := { onAir { crcD with maxRetry := 1 } with inputs := List.replicate (1 + 1) (respOnly true 0) ++ [] }
    Invariants s ∧ s.cs = .transmitting ∧ s.coll = 0 ∧ s.act.boMode = .immediate ∧ s.act.maxRetry ≠ 0
      ∧ s.act.maxRetry.toNat < 0xFFFF ∧ s.inputs = List.replicate (s.act.maxRetry.toNat + 1) (respOnly true 0) ++ [] :=
  ⟨by constructor <;> decide +kernel, by decide +kernel⟩
/-- A backoff of two ticks, one of none, and one of two whose first is in the collision's own cycle. -/
theorem witness_BackedOffFrameReturnsAtTheLastTick :
    let s := fun (d : BitVec 10) (own : Bool) (n : Nat) => { onAir { crcD with boMode := .beb, slot := 2 } with
      inputs := { respOnly true d with tick := own } :: (List.replicate n tickOnly ++ []) }
    let ticks := fun (u : State) (d : BitVec 10) => d.toNat % 2 ^ min (u.coll.toNat + 1) 10 * u.act.slot.toNat
    (Invariants (s 1 false 2) ∧ (s 1 false 2).cs = .transmitting ∧ (s 1 false 2).act.boMode = .beb
        ∧ (s 1 false 2).act.maxRetry = 0 ∧ 2 = ticks (s 1 false 2) 1 ∧ 2 = 2 - false.toNat)
      ∧ (Invariants (s 0 false 0) ∧ 0 = ticks (s 0 false 0) 0 ∧ 0 = 0 - false.toNat)
      ∧ (Invariants (s 1 true 1) ∧ 2 = ticks (s 1 true 1) 1 ∧ 1 = 2 - true.toNat) := by
  refine ⟨⟨?_, ?_⟩, ⟨?_, ?_⟩, ⟨?_, ?_⟩⟩ <;> first | decide +kernel | (constructor <;> decide +kernel)
theorem witness_HeldFrameIsIndependentOfTheSender :
    ∃ t, exec (.ack 1) (onAir crcD) = .next t ∧ (Instr.ack 1) ≠ .teardown ∧ (Instr.ack 1) ≠ .configure :=
  (exists_of_answers (by decide +kernel)).imp fun _ h => ⟨h, by decide, by decide⟩

/-- The last DATA word of the smallest and of the default instance, and the offset after it. -/
theorem witness_RegisterMapHasOneRegisterPerOffset :
    Params.legal ⟨64, 1, 2, 1⟩ = true ∧ 0x184 % 4 = 0 ∧ regAt ⟨64, 1, 2, 1⟩ 0x184 = some (.data 1)
      ∧ regAt ⟨64, 1, 2, 1⟩ 0x188 = none ∧ regAt Params.default 0x19C = some (.data 7)
      ∧ (∀ j, Reg.txh ≠ .data j) ∧ (∀ j, Reg.txh ≠ .result j) := by
  refine ⟨by decide +kernel, by decide +kernel, by decide +kernel, by decide +kernel, by decide +kernel, ?_, ?_⟩ <;>
    simp
theorem witness_RefusedAccessOnlyRaisesBusErr :
    (access true 0x008 0).busValid = true
      ∧ busTarget State.reset.params (access true 0x008 0).busWrite (access true 0x008 0).busAddr
          (access true 0x008 0).busSize = .error .readOnly := by decide +kernel
theorem witness_ReadReturnsTheStartOfCycleValue :
    let i := access false 0x00C 0
    Invariants (facing (onAir crcD) i) ∧ (facing (onAir crcD) i).inputs = i :: [] ∧ accesses (onAir crcD).params i false .state
      ∧ i.respValid = false ∧ i.tick = false ∧ 31 < 32 := by
  refine ⟨by constructor <;> decide +kernel, rfl, ?_⟩
  unfold accesses
  decide +kernel
theorem witness_StorageWriteReplacesTheDefinedBits :
    State.reset.params.legal = true ∧ Reg.exists State.reset.params (.data 7) = true ∧ (Reg.data 7).access = .rw
      ∧ (Reg.data 6) ≠ .data 7 := by decide
theorem witness_StatusReadsItsFieldsAndClearsTheSelectedFlags : 7 < 32 ∧ 8 < 32 ∧ 11 < 32 ∧ 12 < 32 := by decide
/-- Each clause: a spurious response, an abort at the cap, an expiring tick, and the cycle without its bus access. -/
theorem witness_FlagSetInTheCycleSurvivesTheClear :
    let i := { access true 0x004 0xF00 with respValid := true }
    let a := { access true 0x004 0xF00 with respValid := true, respCollision := true }
    let j := { access true 0x004 0xF00 with tick := true }
    let cap := { onAir { crcD with maxRetry := 1 } with coll := 1 }
    let bare := { outstanding crcD 1 with flags := StickyFlags.clear, inputs := { j with busValid := false } :: [] }
    (Invariants (facing (session crcD) i) ∧ accesses (session crcD).params i true .status ∧ i.respValid = true
        ∧ (session crcD).cs ≠ .transmitting)
      ∧ (Invariants (facing cap a) ∧ accesses cap.params a true .status ∧ a.respValid = true ∧ a.respCollision = true
        ∧ cap.cs = .transmitting ∧ cap.act.maxRetry ≠ 0 ∧ cap.act.maxRetry.toNat < min (cap.coll.toNat + 1) 0xFFFF)
      ∧ (Invariants (facing (outstanding crcD 1) j) ∧ accesses (outstanding crcD 1).params j true .status
        ∧ j.respValid = false ∧ j.tick = true ∧ (outstanding crcD 1).tmrRun = true ∧ (outstanding crcD 1).tmr = 1
        ∧ answers (step bare) = true ∧ (after (step bare) bare).flags.tout = true) := by
  refine ⟨⟨by constructor <;> decide +kernel, ?_⟩, ⟨by constructor <;> decide +kernel, ?_⟩,
    ⟨by constructor <;> decide +kernel, ?_⟩⟩ <;> unfold accesses <;> decide +kernel
theorem witness_ParamReportsTheInstance :
    (State.resetFor ⟨1024, 255, 16, 65534⟩).params.legal = true ∧ ∃ t, step State.reset = .next t :=
  ⟨by decide, exists_of_answers (by decide +kernel)⟩
/-- One state for each of `bits`, `config`, `key` and `clrflags`. -/
theorem witness_PseudoInstructionsDoWhatTheyStandFor :
    let s := { session crcD with inputs := programInputs Params.default [.bits [true, false]] ++ [] }
    let a : ConfigArgs := { win := 8, timeout := 3, maxretry := 0xFFFF, slot := 0xFFFF, key := 0xD }
    let u := { State.reset with inputs := programInputs Params.default [.config a] ++ [] }
    let k := { session crcD with inputs := programInputs Params.default [.key 0x8000000000000001] ++ [] }
    let c := { session crcD with inputs := programInputs Params.default [.clrflags] ++ [] }
    (Invariants s ∧ [true, false].length ≤ s.params.bmax)
      ∧ (Invariants u ∧ (a.mode = .crc → keyValid a.key = true) ∧ 1 ≤ a.win.toNat ∧ a.win.toNat ≤ u.params.wmax
        ∧ a.maxretry.toNat < 2 ^ 16 ∧ a.slot.toNat < 2 ^ 16)
      ∧ Invariants k ∧ Invariants c := by
  refine ⟨⟨?_, ?_⟩, ⟨?_, ?_⟩, ?_, ?_⟩ <;> first | decide +kernel | (constructor <;> decide +kernel)

theorem witness_NopAndIllegalWordsOnlyWriteLast :
    State.reset.last = .ok ∧ legalWord 0x8 = false ∧ { State.reset with last := .illegalCommand }.last = .illegalCommand := by
  decide
/-- One staged configuration for each clause of CONFIGURE. -/
theorem witness_ConfigureInstallsTheStagedConfiguration :
    let good := { crcD with win := 8 }
    ({ crcD with key := 8 }.mode = .crc ∧ keyValid 8 = false)
      ∧ ((crcD.mode = .crc → keyValid crcD.key = true) ∧ { crcD with win := 0 }.win = 0
        ∧ Params.default.wmax < { crcD with win := 9 }.win.toNat)
      ∧ ((good.mode = .crc → keyValid good.key = true) ∧ good.win ≠ 0 ∧ good.win.toNat ≤ Params.default.wmax) := by
  decide +kernel
/-- A TEARDOWN and a CONFIGURE that passes its checks, each with a response in its cycle. -/
theorem witness_ResponseInTheSessionResetCycleIsSpurious :
    let i := fun (c : Instr) =>
      { Inputs.commandWrite (encode c) with respValid := true, respCollision := true, boDraw := 3 }
    let s := onAir crcD
    s.params.legal = true ∧ (facing s (i .teardown)).inputs = i .teardown :: []
      ∧ (facing s (i .configure)).inputs = i .configure :: [] ∧ (s.cfg.mode = .crc → keyValid s.cfg.key = true)
      ∧ s.cfg.win ≠ 0 ∧ s.cfg.win.toNat ≤ s.params.wmax := by decide +kernel

theorem witness_OnlyCommandsWriteLast :
    let s := facing (session crcD) (access true 0x080 1)
    ∃ t, step s = .next t ∧ s.currentInputs.rst = false ∧ ¬accesses s.params s.currentInputs true .cmd := by
  refine (exists_of_answers (by decide +kernel)).imp fun _ h => ⟨h, by decide, ?_⟩
  unfold accesses
  decide +kernel
/-- A VERIFY that changes VERDICT, an ENCODE that changes RESULT, and a CONFIGURE that changes the configuration. -/
theorem witness_EachResultHasOneWriter :
    let v := facing (withData crcD 10 0x2AB) (access true 0 2)
    let e := facing (withData crcD 7 0x55) (access true 0 1)
    let c := facing { State.reset with cfg := crcD } (access true 0 6)
    (answers (step v) = true ∧ (after (step v) v).verdict ≠ v.verdict)
      ∧ (answers (step e) = true ∧ (after (step e) e).result ≠ e.result)
      ∧ (answers (step c) = true ∧ (after (step c) c).act ≠ c.act) := by decide +kernel
/-- All four flags set, and cleared by one write to STATUS. -/
theorem witness_OnlyTheHostClearsAFlag :
    let s := facing { session crcD with flags := ⟨true, true, true, true⟩ } (access true 0x004 0xF00)
    answers (step s) = true ∧ s.currentInputs.rst = false ∧ s.flags = ⟨true, true, true, true⟩
      ∧ (after (step s) s).flags = StickyFlags.clear := by decide +kernel
theorem witness_FlagsAndCountersInfluenceNothing : ∃ t, step (onAir crcD) = .next t :=
  exists_of_answers (by decide +kernel)

theorem witness_ReceiverGetsTheBufferedPayload :
    Invariants (onAir crcD) ∧ presentedFrame (onAir crcD) = some ⟨1, ⟨7, 0x5C⟩⟩
      ∧ Buffer.get (onAir crcD).buf (1 : BitVec 16).toNat = some ⟨4, 0xB⟩ :=
  ⟨inv_onAir, by decide +kernel⟩
theorem witness_ReceiverDropsASingleBitCorruption :
    Invariants (onAir crcD) ∧ (onAir crcD).act.mode = .crc ∧ presentedFrame (onAir crcD) = some ⟨1, ⟨7, 0x5C⟩⟩
      ∧ Buffer.get (onAir crcD).buf (1 : BitVec 16).toNat = some ⟨4, 0xB⟩ ∧ 6 < (7 : BitVec 16).toNat :=
  ⟨inv_onAir, by decide +kernel⟩

end Sys2Proof.Tests.Slice0
end

section
/-! PROOFS. Packed bit strings as polynomials over GF(2), and `polymod` as the remainder of one by the other (R13). -/

namespace Sys2Proof.Proofs

open Sys2Proof Sys2Proof.Machine Sys2Proof.Safety

/-! ### What `gf2Poly` makes of the operations on packed values -/

@[simp] theorem coeff_gf2Poly (n v i : Nat) :
    (gf2Poly n v).coeff i = if i < n ∧ v.testBit i then 1 else 0 := by
  have hterm (j : Nat) : (if v.testBit j then Polynomial.X ^ j else 0 : Polynomial (ZMod 2)).coeff i =
      if i = j then (if v.testBit i then 1 else 0) else 0 := by
    split <;> split <;> simp_all [Polynomial.coeff_X_pow]
  simp only [gf2Poly, Polynomial.finsetSum_coeff, hterm, Finset.sum_ite_eq, Finset.mem_range, ite_and]

/-- Leading zeros do not count: a value that fits m bits stands for the same polynomial at every larger width. -/
theorem gf2Poly_widen {m n v : Nat} (hv : v < 2 ^ m) (hmn : m ≤ n) : gf2Poly n v = gf2Poly m v := by
  ext i
  by_cases hi : i < m
  · simp [hi, Nat.lt_of_lt_of_le hi hmn]
  · simp [hi, Nat.testBit_lt_two_pow (Nat.lt_of_lt_of_le hv (Nat.pow_le_pow_right (by decide) (Nat.le_of_not_lt hi)))]

/-- Exclusive or is addition over GF(2). -/
theorem gf2Poly_xor (n v w : Nat) : gf2Poly n (v ^^^ w) = gf2Poly n v + gf2Poly n w := by
  ext i
  simp only [coeff_gf2Poly, Polynomial.coeff_add, Nat.testBit_xor]
  by_cases hi : i < n
  · cases v.testBit i <;> cases w.testBit i <;> simp [hi, CharTwo.add_self_eq_zero]
  · simp [hi]

/-- A shift by k is multiplication by x^k. -/
theorem gf2Poly_shiftLeft (n v k : Nat) : gf2Poly (n + k) (v <<< k) = gf2Poly n v * Polynomial.X ^ k := by
  ext i
  rw [Polynomial.coeff_mul_X_pow']
  by_cases hk : k ≤ i
  · simp [hk, Nat.testBit_shiftLeft, Nat.sub_lt_iff_lt_add hk]
  · simp [hk, Nat.testBit_shiftLeft]

/-- The bits a shift of a packed value loses are the ones the polynomial of its width does not count. -/
theorem gf2Poly_toNat_shiftLeft {w : Nat} (v : BitVec w) (k : Nat) :
    gf2Poly w (v <<< k).toNat = gf2Poly w (v.toNat <<< k) := by
  ext i
  by_cases hi : i < w <;> simp [hi, BitVec.toNat_shiftLeft, Nat.testBit_mod_two_pow]

theorem degree_gf2Poly_lt {n v r : Nat} (hv : v < 2 ^ r) : (gf2Poly n v).degree < r := by
  rw [Polynomial.degree_lt_iff_coeff_zero]
  intro i hi
  simp [Nat.testBit_lt_two_pow (Nat.lt_of_lt_of_le hv (Nat.pow_le_pow_right (by decide) hi))]

theorem le_degree_gf2Poly {n v r : Nat} (hr : r < n) (hv : v.testBit r = true) :
    (r : WithBot Nat) ≤ (gf2Poly n v).degree :=
  Polynomial.le_degree_of_ne_zero (by simp [hr, hv])

/-! ### The loop of `polymod` -/

/-- The divisor shifted to an iteration's bit position is G(x) x^k: no coefficient falls off the packed form. -/
theorem gf2Poly_divisor_shiftLeft {g : Bits} {m k : Nat} (hg : g.toNat < 2 ^ m) (hmk : m + k ≤ 1024) :
    gf2Poly 1024 (g <<< k).toNat = gf2Poly 1024 g.toNat * Polynomial.X ^ k := by
  have hk : k ≤ 1024 := by omega
  calc gf2Poly 1024 (g <<< k).toNat
      = gf2Poly (1024 - k + k) (g.toNat <<< k) := by
        rw [gf2Poly_toNat_shiftLeft, Nat.sub_add_cancel hk]
    _ = gf2Poly (1024 - k) g.toNat * Polynomial.X ^ k := gf2Poly_shiftLeft ..
    _ = gf2Poly 1024 g.toNat * Polynomial.X ^ k := by
        rw [gf2Poly_widen hg (Nat.le_sub_of_add_le hmk), gf2Poly_widen hg (Nat.le_of_add_right_le hmk)]

/-- Each iteration adds a multiple of G(x) or nothing, so the loop keeps the remainder by G(x). -/
theorem gf2Poly_polymodLoop_mod {g : Bits} {r : Nat} (hg : g.toNat < 2 ^ (r + 1)) :
    ∀ (k : Nat) (v : Bits), r + k ≤ 1024 →
      gf2Poly 1024 (polymodLoop g r k v).toNat % gf2Poly 1024 g.toNat = gf2Poly 1024 v.toNat % gf2Poly 1024 g.toNat
  | 0, _, _ => rfl
  | k + 1, v, hk => by
    rw [polymodLoop, gf2Poly_polymodLoop_mod hg k _ (by omega)]
    split
    · rw [BitVec.toNat_xor, gf2Poly_xor, gf2Poly_divisor_shiftLeft hg (by omega), Polynomial.add_mod,
        EuclideanDomain.mod_eq_zero.2 (dvd_mul_right _ _), add_zero]
    · rfl

/-- With n <= r the loop of `polymod` does nothing. -/
theorem polymod_eq_self {g : BitVec 64} {n : Nat} (v : Bits) (h : n ≤ bitlen g.toNat - 1) : polymod v n g = v := by
  simp only [polymod, Nat.sub_eq_zero_of_le h, polymodLoop]

/-- The divisor is the key's polynomial at the packed width. -/
theorem gf2Poly_setWidth (g : BitVec 64) : gf2Poly 1024 (g.setWidth 1024).toNat = gf2Poly 64 g.toNat := by
  rw [BitVec.toNat_setWidth_of_le (by decide), gf2Poly_widen g.isLt (by decide)]

/-- `polymod` leaves the remainder by G(x) as it is. -/
theorem gf2Poly_polymod_mod {g : BitVec 64} {n : Nat} (v : Bits) (h : 2 ≤ bitlen g.toNat) (hn : n ≤ 1024) :
    gf2Poly 1024 (polymod v n g).toNat % gf2Poly 64 g.toNat = gf2Poly 1024 v.toNat % gf2Poly 64 g.toNat := by
  have hlen : bitlen g.toNat ≤ 64 := bitlen_le g.isLt
  simpa only [polymod, gf2Poly_setWidth] using
    gf2Poly_polymodLoop_mod (divisor_bounds h).1 (n - (bitlen g.toNat - 1)) v (by omega)

/-- A polynomial of fewer than bitlen(G) bits is its own remainder. -/
theorem gf2Poly_mod_eq_self {g : BitVec 64} {n v : Nat} (h : 2 ≤ bitlen g.toNat)
    (hv : v < 2 ^ (bitlen g.toNat - 1)) : gf2Poly n v % gf2Poly 64 g.toNat = gf2Poly n v := by
  have hlen : bitlen g.toNat ≤ 64 := bitlen_le g.isLt
  have htop := testBit_bitlen (ne_zero_of_bitlen (Nat.le_of_succ_le h))
  have hlt := (degree_gf2Poly_lt (n := n) hv).trans_le (le_degree_gf2Poly (n := 64) (by omega) htop)
  exact (Polynomial.mod_eq_self_iff (Polynomial.ne_zero_of_degree_gt hlt)).2 hlt

/-- Settles O13: the loop keeps the remainder by G(x), and its result is of lower degree than G(x). -/
theorem polymodIsThePolynomialRemainder : Obligations.PolymodIsThePolynomialRemainder := by
  intro v n g hn hv hg
  have hlt := polymod_lt hg hn hv
  refine ⟨?_, hlt, polymod_eq_self v⟩
  rw [← gf2Poly_polymod_mod v hg hn, gf2Poly_mod_eq_self hg hlt]

end Sys2Proof.Proofs
end

section
/-! PROOFS. One lemma per command that says what it can do, and what the bus can store. -/

namespace Sys2Proof.Proofs

open Sys2Proof Sys2Proof.Machine Sys2Proof.Safety

/-! ### Commands -/

/-- ENCODE reports an error, or writes the codeword of a payload that fits (R96). -/
theorem execEncode_cases (s : State) :
    (∃ c, c ≠ .ok ∧ execEncode s = .next (s.setStatus c))
      ∨ (s.cfgValid = true ∧ operandOk s = true ∧ fitsCodeword s = true
          ∧ execEncode s = .next ({ s with result := encodeWith s.act s.data }.setStatus .ok)) := by
  unfold execEncode
  split_ifs with hv ho hf
  · exact .inl ⟨_, by decide, rfl⟩
  · exact .inl ⟨_, by decide, rfl⟩
  · exact .inl ⟨_, by decide, rfl⟩
  · simp only [Bool.not_eq_false] at hv ho hf
    exact .inr ⟨hv, ho, hf, rfl⟩

/-- VERIFY writes VERDICT and LAST, on every path (R97). -/
theorem execVerify_cases (s : State) :
    ∃ v c, execVerify s = .next ((s.setVerdict v).setStatus c) := by
  unfold execVerify
  split_ifs <;> exact ⟨_, _, rfl⟩

/-- SEND reports an error, or queues a payload that fits under a number the window and the session still have (R118). -/
theorem execSend_cases (s : State) :
    (∃ c, c ≠ .ok ∧ execSend s = .next (s.setStatus c))
      ∨ (s.cfgValid = true ∧ operandOk s = true ∧ fitsCodeword s = true ∧ s.outstanding < s.act.win.toNat
          ∧ s.next.toNat ≠ s.params.seqLimit
          ∧ execSend s = .next ({ s with
              buf := Buffer.put s.buf s.next.toNat s.data, next := s.next + 1 }.setStatus .ok)) := by
  unfold execSend
  split_ifs with hv ho hw hl
  · exact .inl ⟨_, by decide, rfl⟩
  · exact .inl ⟨_, by decide, rfl⟩
  · exact .inl ⟨_, by decide, rfl⟩
  · exact .inl ⟨_, by decide, rfl⟩
  · simp only [Bool.not_eq_false, not_or] at hv ho
    exact .inr ⟨hv, ho.1, ho.2, Nat.lt_of_not_le hw, hl, rfl⟩

/-- ACK takes a number inside the window, and reports any other (R119). -/
theorem execAck_cases (ack : BitVec 16) (s : State) :
    (s.base.toNat ≤ ack.toNat ∧ ack.toNat < s.next.toNat
        ∧ execAck ack s = .next ((ackAccepted ack s).setStatus .ok))
      ∨ execAck ack s = .next ((ackRefused s).setStatus .invalidAck) := by
  unfold execAck
  split_ifs with h
  · exact .inl ⟨h.1, h.2, rfl⟩
  · exact .inr rfl

/-- The window a valid ACK leaves, before the timer is looked at (R119). -/
def ackWindow (ack : BitVec 16) (s : State) : State :=
  { s with
    buf := Buffer.removeRange s.buf s.base.toNat ack.toNat
    base := ack + 1
    txptr := if s.txptr.toNat < (ack + 1).toNat then ack + 1 else s.txptr }

/-- After a valid ACK the timer stops with an empty window, restarts where it is enabled, or is left alone (R119). -/
theorem ackAccepted_cases (ack : BitVec 16) (s : State) :
    (ack + 1 = s.next ∧ ackAccepted ack s = (ackWindow ack s).stopTimer)
      ∨ (ack + 1 ≠ s.next ∧ s.act.timeout ≠ 0 ∧ ackAccepted ack s = (ackWindow ack s).loadTimer)
      ∨ (ack + 1 ≠ s.next ∧ s.act.timeout = 0 ∧ ackAccepted ack s = ackWindow ack s) := by
  by_cases hb : ack + 1 = s.next
  · exact .inl ⟨hb, if_pos hb⟩
  by_cases ht : s.act.timeout = 0
  · exact .inr (.inr ⟨hb, ht, (if_neg hb).trans (if_neg (not_not.2 ht))⟩)
  · exact .inr (.inl ⟨hb, ht, (if_neg hb).trans (if_pos ht)⟩)

/-- CONFIGURE reports an error, or installs a staged configuration that passed its checks in a new session (R127). -/
theorem execConfigure_cases (s : State) :
    (∃ c, c ≠ .ok ∧ execConfigure s = .next (s.setStatus c))
      ∨ ((s.cfg.mode = .crc → keyValid s.cfg.key = true) ∧ 1 ≤ s.cfg.win.toNat ∧ s.cfg.win.toNat ≤ s.params.wmax
          ∧ execConfigure s = .next ((sessionReset { s with act := s.cfg, cfgValid := true }).setStatus .ok)) := by
  unfold execConfigure
  split_ifs with hk hw
  · exact .inl ⟨_, by decide, rfl⟩
  · exact .inl ⟨_, by decide, rfl⟩
  · rw [not_and, Bool.not_eq_false] at hk
    exact .inr ⟨hk, by omega, by omega, rfl⟩

end Sys2Proof.Proofs
end

section
/-! PROOFS. The invariants of R40 to R45 along a cycle: the part that holds between its sub-steps, that each sub-step keeps it, and that a step ends with all of them. -/

namespace Sys2Proof.Proofs

open Sys2Proof Sys2Proof.Machine Sys2Proof.Safety

/-! ### The part of the invariants that holds between sub-steps -/

/-- What holds of a state between two sub-steps of a cycle. From `Invariants` it leaves out the two facts that only
the internal sub-step brings back, that no backoff of 0 ticks waits and no frame is unstarted, and every conjunct of
R44 and R45 that follows from the others (`invariants_of_midCycle`). -/
structure MidCycle (s : State) : Prop where
  legal : s.params.legal = true
  window : WindowInvariant s
  buffer : BufferInvariant s
  timer : TimerInvariant s
  held : s.cs ≠ .idle ↔ s.txh.valid = true
  countdown : s.bocnt ≠ 0 → s.cs = .backoff ∧ s.act.boMode = .beb
  collisions : s.cs ≠ .idle → s.act.maxRetry ≠ 0 → s.coll.toNat ≤ s.act.maxRetry.toNat
  unconfigured : s.cfgValid = false → s.cs = .idle ∧ s.act = ConfigRegs.zero
  active : s.cfgValid = true →
    1 ≤ s.act.win.toNat ∧ s.act.win.toNat ≤ s.params.wmax ∧ (s.act.mode = .crc → keyValid s.act.key = true)
  payloads : ∀ e ∈ s.buf, wellFormed s.params.bmax e.2 = true ∧ e.2.len.toNat + redundancy s.act ≤ s.params.bmax
  holdEmpty : s.txh.valid = false → s.txh = TxHold.none
  holdFromBuffer : s.txh.valid = true →
    s.txh.seq.toNat < s.next.toNat
      ∧ (Buffer.get s.buf s.txh.seq.toNat).all (fun p => encodeWith s.act p == s.txh.frame) = true
  frameWellFormed : wellFormed s.params.bmax s.txh.frame = true
  dataWidth : s.data.bits >>> s.params.bmax = 0
  resultWellFormed : wellFormed s.params.bmax s.result = true

theorem midCycle_of_invariants {s : State} (h : Invariants s) : MidCycle s := by
  obtain ⟨hheld, hcount, hcoll, -⟩ := h.csma
  obtain ⟨-, -, -, -, hframe, hpay⟩ := h.width
  exact { h with
    held := hheld, countdown := hcount, collisions := hcoll, frameWellFormed := hframe
    unconfigured := fun hv => by
      obtain ⟨-, hcs, -, -, hact, -⟩ := h.config hv
      exact ⟨hcs, hact⟩
    payloads := fun e he => ⟨hpay e he, h.payloadsFit e he⟩ }

/-- In NONE mode a backoff has no ticks (R108). -/
theorem backoffTicks_of_immediate {c : ConfigRegs} (h : c.boMode = .immediate) (draw : BitVec 10) (n : BitVec 16) :
    backoffTicks c draw n = 0 := by
  rw [backoffTicks, h]

theorem beb_of_backoffTicks_ne_zero {c : ConfigRegs} {draw : BitVec 10} {n : BitVec 16}
    (h : backoffTicks c draw n ≠ 0) : c.boMode = .beb := by
  cases hm : c.boMode with
  | immediate => exact absurd (backoffTicks_of_immediate hm draw n) h
  | beb => rfl

/-- A timer stopped at 0 meets R42. -/
theorem timerInvariant_of_stopped {s : State} (hrun : s.tmrRun = false) (htmr : s.tmr = 0) : TimerInvariant s :=
  ⟨by simp [hrun, htmr], by simp [hrun]⟩

/-- An empty window at SEQ_INIT meets R40. -/
theorem windowInvariant_of_new_session {s : State} (hlegal : s.params.legal = true)
    (hb : s.base = BitVec.ofNat 16 s.params.seqInit) (ht : s.txptr = s.base) (hn : s.next = s.base) :
    WindowInvariant s := by
  obtain ⟨-, -, -, -, -, -, -, -, hinit⟩ := params_legal_iff.1 hlegal
  have hlimit : s.params.seqLimit = 2 ^ s.params.seqW - 1 := rfl
  have hbase : s.base.toNat = s.params.seqInit := by rw [hb, seqInit_toNat hlegal]
  rw [WindowInvariant, ht, hn]
  exact ⟨le_rfl, le_rfl, by omega, by omega, fun _ => ⟨hbase, hbase, hbase⟩⟩

namespace MidCycle

variable {s : State}

/-- R44 follows from the window, the keys of BUF and the held frame being a sent one. -/
theorem widthInvariant (h : MidCycle s) : WidthInvariant s := by
  obtain ⟨hbt, htn, hnl, -, -⟩ := h.window
  have hspace := params_legal_seq_space h.legal
  have hkey : ∀ e ∈ s.buf, e.1 < s.next.toNat := fun e he => by
    have hmem : e.1 ∈ s.buf.map Prod.fst := List.mem_map_of_mem he
    rw [h.buffer, List.mem_range'_1] at hmem
    omega
  have hseq : s.txh.seq.toNat ≤ s.params.seqLimit - 1 := by
    cases hv : s.txh.valid with
    | false => simp [h.holdEmpty hv, TxHold.none]
    | true => have := (h.holdFromBuffer hv).1; omega
  have hlimit : s.params.seqLimit = 2 ^ s.params.seqW - 1 := rfl
  refine ⟨⟨by omega, by omega, by omega, by omega, fun e he => ?_⟩, ⟨by omega, hnl, by omega⟩,
    ⟨hseq, fun e he => ?_⟩, ((wellFormed_iff _ _).1 h.resultWellFormed).1, h.frameWellFormed,
    fun e he => (h.payloads e he).1⟩
  · have := hkey e he; omega
  · have := hkey e he; omega

/-- A timer that may not run is stopped at 0. -/
theorem timer_stopped (h : MidCycle s) (hno : ¬(s.next ≠ s.base ∧ s.act.timeout ≠ 0)) :
    s.tmrRun = false ∧ s.tmr = 0 := by
  have hstop : s.tmrRun = false := by
    by_contra hrun
    exact hno (h.timer.2 (by simpa using hrun))
  refine ⟨hstop, ?_⟩
  by_contra htmr
  exact absurd (h.timer.1.2 htmr) (by simp [hstop])

/-- R45 follows from an unconfigured window being empty. -/
theorem configInvariant (h : MidCycle s) : ConfigInvariant s := by
  intro hv
  obtain ⟨-, -, -, -, hinit⟩ := h.window
  obtain ⟨hb, -, hn⟩ := hinit hv
  have heq : s.next = s.base := BitVec.eq_of_toNat_eq (hn.trans hb.symm)
  obtain ⟨hstop, htmr⟩ := h.timer_stopped fun hrun => hrun.1 heq
  have hbuf : s.buf.map Prod.fst = [] := by rw [h.buffer, heq]; simp
  obtain ⟨hcs, hact⟩ := h.unconfigured hv
  exact ⟨List.map_eq_nil_iff.1 hbuf, hcs, hstop, htmr, hact, by simp [occ, heq]⟩

theorem seqLimit_lt (h : MidCycle s) : s.params.seqLimit < 2 ^ 16 := by
  have := params_legal_seq_space h.legal
  unfold Params.seqLimit
  omega

end MidCycle

/-- With the two facts the internal sub-step brings back, the mid-cycle part gives all the invariants. -/
theorem invariants_of_midCycle {s : State} (h : MidCycle s) (hbackoff : ¬(s.cs = .backoff ∧ s.bocnt = 0))
    (hstarted : ¬(s.cs = .idle ∧ s.cfgValid = true ∧ s.txptr.toNat < s.next.toNat)) : Invariants s :=
  { h with
    csma := ⟨h.held, h.countdown, h.collisions, hbackoff⟩
    width := h.widthInvariant
    config := h.configInvariant
    payloadsFit := fun e he => (h.payloads e he).2
    started := hstarted }

namespace MidCycle

variable {s : State}

/-! ### Named updates and shared transitions -/

theorem setStatus (h : MidCycle s) (c : StatusCode) : MidCycle (s.setStatus c) := { h with }

theorem stopTimer (h : MidCycle s) : MidCycle s.stopTimer := { h with timer := timerInvariant_of_stopped rfl rfl }

theorem loadTimer (h : MidCycle s) (hne : s.next ≠ s.base) (ht : s.act.timeout ≠ 0) : MidCycle s.loadTimer :=
  { h with timer := ⟨⟨fun _ => ht, fun _ => rfl⟩, fun _ => ⟨hne, ht⟩⟩ }

theorem timerAfterTx (h : MidCycle s) : MidCycle (timerAfterTx s) := by
  obtain ⟨ht, hne, heq⟩ | ⟨-, heq⟩ := timerAfterTx_cases s <;> rw [heq]
  · exact h.loadTimer hne ht
  · exact h

/-- With no backoff counting down, the unit can let its frame go. -/
theorem releaseHold (h : MidCycle s) (hb : s.bocnt = 0) : MidCycle s.releaseHold :=
  { h with
    held := by simp [TxHold.none]
    countdown := fun hne => absurd hb hne
    collisions := fun hne => absurd rfl hne
    unconfigured := fun hv => ⟨rfl, (h.unconfigured hv).2⟩
    holdEmpty := fun _ => rfl
    holdFromBuffer := by simp [TxHold.none]
    frameWellFormed := empty_wellFormed _ }

/-- Outside Backoff no backoff counts down. -/
theorem bocnt_eq_zero (h : MidCycle s) (hcs : s.cs ≠ .backoff) : s.bocnt = 0 := by
  by_contra hne
  exact hcs (h.countdown hne).1

theorem onTimeout (h : MidCycle s) : MidCycle (onTimeout s) := by
  obtain ⟨-, heq⟩ | ⟨-, heq⟩ := onTimeout_cases s <;> rw [heq]
  · exact h
  · obtain ⟨hbt, htn, hnl, hwin, hinit⟩ := h.window
    exact { h with
      window := ⟨le_rfl, hbt.trans htn, hnl, hwin, fun hv => ⟨(hinit hv).1, (hinit hv).1, (hinit hv).2.2⟩⟩
      timer := timerInvariant_of_stopped rfl rfl }

/-- A new session needs no invariant of the old one: only what outlives it, the parameters, the active configuration,
DATA and RESULT. -/
theorem sessionReset (hlegal : s.params.legal = true)
    (hinactive : s.cfgValid = false → s.act = ConfigRegs.zero)
    (hactive : s.cfgValid = true →
      1 ≤ s.act.win.toNat ∧ s.act.win.toNat ≤ s.params.wmax ∧ (s.act.mode = .crc → keyValid s.act.key = true))
    (hdata : s.data.bits >>> s.params.bmax = 0) (hresult : wellFormed s.params.bmax s.result = true) :
    MidCycle (sessionReset s) where
  legal := hlegal
  window := windowInvariant_of_new_session hlegal rfl rfl rfl
  buffer := by rw [BufferInvariant]; simp [Machine.sessionReset]
  timer := timerInvariant_of_stopped rfl rfl
  held := by simp [Machine.sessionReset, TxHold.none]
  countdown := fun hne => absurd rfl hne
  collisions := fun hne => absurd rfl hne
  unconfigured := fun hv => ⟨rfl, hinactive hv⟩
  active := hactive
  payloads := by simp [Machine.sessionReset]
  holdEmpty := fun _ => rfl
  holdFromBuffer := by simp [Machine.sessionReset, TxHold.none]
  frameWellFormed := empty_wellFormed _
  dataWidth := hdata
  resultWellFormed := hresult

/-- The state after reset is that of a new session, with nothing configured. -/
theorem resetFor {p : Params} (hp : p.legal = true) : MidCycle (State.resetFor p) :=
  sessionReset (s := State.resetFor p) hp (fun _ => rfl) nofun (by simp [State.resetFor, BitString.empty])
    (empty_wellFormed _)

end MidCycle

end Sys2Proof.Proofs
end

section
/-! PROOFS. Each sub-step keeps the mid-cycle part of the invariants, and a step ends with all of them. -/

namespace Sys2Proof.Proofs.MidCycle

open Sys2Proof Sys2Proof.Machine Sys2Proof.Safety

variable {s : State}

/-! ### Commands -/

theorem encodeWith_wellFormed (h : MidCycle s) (hv : s.cfgValid = true) {p : BitString}
    (hp : wellFormed s.params.bmax p = true) (hfit : p.len.toNat + redundancy s.act ≤ s.params.bmax) :
    wellFormed s.params.bmax (encodeWith s.act p) = true := by
  obtain ⟨-, hcap, -⟩ := params_legal_iff.1 h.legal
  obtain ⟨-, -, hkey⟩ := h.active hv
  exact Machine.encodeWith_wellFormed hcap hp hfit hkey

theorem execEncode (h : MidCycle s) : ∃ t, execEncode s = .next t ∧ MidCycle t := by
  obtain ⟨c, -, heq⟩ | ⟨hv, hok, hfit, heq⟩ := execEncode_cases s
  · exact ⟨_, heq, h.setStatus c⟩
  · exact ⟨_, heq, { h with
      resultWellFormed := h.encodeWith_wellFormed hv hok (by simpa [fitsCodeword] using hfit) }⟩

theorem execVerify (h : MidCycle s) : ∃ t, execVerify s = .next t ∧ MidCycle t := by
  obtain ⟨v, c, heq⟩ := execVerify_cases s
  exact ⟨_, heq, { h with }⟩

/-- The number after one below SEQ_LIMIT does not wrap. -/
theorem add_one_toNat (h : MidCycle s) {q : BitVec 16} (hq : q.toNat < s.params.seqLimit) :
    (q + 1).toNat = q.toNat + 1 := by
  have := h.seqLimit_lt
  rw [BitVec.toNat_add_of_lt (by simp; omega)]
  rfl

/-- A queued payload extends the window by one number, and every frame already queued keeps its payload. -/
theorem queued (h : MidCycle s) (hv : s.cfgValid = true) (hok : operandOk s = true) (hfit : fitsCodeword s = true)
    (hwin : s.outstanding < s.act.win.toNat) (hl : s.next.toNat ≠ s.params.seqLimit) :
    MidCycle { s with buf := Buffer.put s.buf s.next.toNat s.data, next := s.next + 1 } := by
  obtain ⟨hbt, htn, hnl, -, -⟩ := h.window
  have hnext := h.add_one_toNat (Nat.lt_of_le_of_ne hnl hl)
  have hend : s.base.toNat + (s.next.toNat - s.base.toNat) = s.next.toNat := by omega
  rw [State.outstanding] at hwin
  refine { h with
    window := ?_
    buffer := ?_
    timer := ⟨h.timer.1, fun hrun => ⟨?_, (h.timer.2 hrun).2⟩⟩
    payloads := fun e he => ?_
    holdFromBuffer := fun hvalid => ?_ }
  · rw [WindowInvariant, hnext]
    dsimp only
    exact ⟨hbt, by omega, by omega, by omega, fun hv' => by simp [hv] at hv'⟩
  · have hkeys := Buffer.keys_put s.data h.buffer
    rw [hend] at hkeys
    rw [BufferInvariant, hnext, hkeys]
    congr 1
    dsimp only
    omega
  · intro heq
    have := congrArg BitVec.toNat heq
    dsimp only at this
    omega
  · rcases Buffer.mem_put he with rfl | he
    · exact ⟨hok, by simpa [fitsCodeword] using hfit⟩
    · exact h.payloads e he
  · obtain ⟨hseq, hframe⟩ := h.holdFromBuffer hvalid
    refine ⟨by rw [hnext]; dsimp only; omega, ?_⟩
    rwa [Buffer.get_put _ _ _ _ (Buffer.wf_of_keys h.buffer), if_neg (Nat.ne_of_lt hseq)]

theorem execSend (h : MidCycle s) : ∃ t, execSend s = .next t ∧ MidCycle t := by
  obtain ⟨c, -, heq⟩ | ⟨hv, hok, hfit, hwin, hl, heq⟩ := execSend_cases s
  · exact ⟨_, heq, h.setStatus c⟩
  · exact ⟨_, heq, (h.queued hv hok hfit hwin hl).setStatus .ok⟩

/-- A valid ACK removes a first part of the window. The timer is taken as stopped: R119 looks at it last. -/
theorem acknowledged (h : MidCycle s) {ack : BitVec 16} (hlo : s.base.toNat ≤ ack.toNat)
    (hhi : ack.toNat < s.next.toNat) : MidCycle (ackWindow ack s).stopTimer := by
  obtain ⟨hbt, htn, hnl, hwin, hinit⟩ := h.window
  have hbase : (ack + 1).toNat = ack.toNat + 1 := h.add_one_toNat (by omega)
  have hend : s.base.toNat + (s.next.toNat - s.base.toNat) = s.next.toNat := by omega
  refine { h with
    window := ?_
    buffer := ?_
    timer := timerInvariant_of_stopped rfl rfl
    payloads := fun e he => h.payloads e (List.mem_of_mem_filter he)
    holdFromBuffer := fun hvalid => ?_ }
  · have htxptr : ((ackWindow ack s).stopTimer).txptr.toNat = max s.txptr.toNat (ack.toNat + 1) := by
      dsimp only [ackWindow, State.stopTimer]
      rw [hbase]
      split_ifs <;> omega
    rw [WindowInvariant, htxptr]
    dsimp only [ackWindow, State.stopTimer]
    rw [hbase]
    exact ⟨by omega, by omega, hnl, by omega, fun hv => by have := hinit hv; omega⟩
  · have hkeys := Buffer.keys_removeRange h.buffer hlo (by omega)
    rwa [hend, ← hbase] at hkeys
  · obtain ⟨hseq, hframe⟩ := h.holdFromBuffer hvalid
    refine ⟨hseq, ?_⟩
    dsimp only [ackWindow, State.stopTimer]
    rw [Buffer.get_removeRange]
    split
    · rfl
    · exact hframe

theorem ackAccepted (h : MidCycle s) {ack : BitVec 16} (hlo : s.base.toNat ≤ ack.toNat)
    (hhi : ack.toNat < s.next.toNat) : MidCycle (ackAccepted ack s) := by
  have hw := h.acknowledged hlo hhi
  obtain ⟨-, heq⟩ | ⟨hne, ht, heq⟩ | ⟨-, ht, heq⟩ := ackAccepted_cases ack s <;> rw [heq]
  · exact hw
  · exact hw.loadTimer (Ne.symm hne) ht
  · obtain ⟨hstop, htmr⟩ := h.timer_stopped fun hrun => hrun.2 ht
    exact { hw with timer := timerInvariant_of_stopped hstop htmr }

theorem execAck (h : MidCycle s) (ack : BitVec 16) : ∃ t, execAck ack s = .next t ∧ MidCycle t := by
  obtain ⟨hlo, hhi, heq⟩ | heq := execAck_cases ack s
  · exact ⟨_, heq, (h.ackAccepted hlo hhi).setStatus .ok⟩
  · exact ⟨_, heq, { h with }⟩

/-- What a new session keeps outlives every state the invariants hold of. -/
theorem sessionReset_of_midCycle (h : MidCycle s) : MidCycle (Machine.sessionReset s) :=
  sessionReset h.legal (fun hv => (h.unconfigured hv).2) h.active h.dataWidth h.resultWellFormed

theorem execConfigure (h : MidCycle s) : ∃ t, execConfigure s = .next t ∧ MidCycle t := by
  obtain ⟨c, -, heq⟩ | ⟨hkey, hlo, hhi, heq⟩ := execConfigure_cases s
  · exact ⟨_, heq, h.setStatus c⟩
  · exact ⟨_, heq, (sessionReset (s := { s with act := s.cfg, cfgValid := true }) h.legal nofun
      (fun _ => ⟨hlo, hhi, hkey⟩) h.dataWidth h.resultWellFormed).setStatus .ok⟩

/-- Every command completes and keeps the invariants, from a state between sub-steps. -/
theorem exec (h : MidCycle s) (c : Instr) : ∃ t, exec c s = .next t ∧ MidCycle t := by
  cases c with
  | nop => exact ⟨_, rfl, h.setStatus .ok⟩
  | encode => exact h.execEncode
  | verify => exact h.execVerify
  | send => exact h.execSend
  | ack arg => exact h.execAck arg
  | timeout => exact ⟨_, rfl, h.onTimeout.setStatus .ok⟩
  | configure => exact h.execConfigure
  | teardown => exact ⟨_, rfl, h.sessionReset_of_midCycle.setStatus .ok⟩
  | illegal w => exact ⟨_, rfl, h.setStatus .illegalCommand⟩

/-! ### The channel response, the tick and the internal sub-step -/

theorem respond (h : MidCycle s) (c : Bool) (draw : BitVec 10) : MidCycle (respond c draw s) := by
  obtain ⟨-, heq⟩ | ⟨hcs, -, heq⟩ | ⟨hcs, -, heq⟩ := respond_cases c draw s <;> rw [heq]
  · exact { h with }
  · have hb : s.bocnt = 0 := h.bocnt_eq_zero (by simp [hcs])
    have hbusy : s.cs ≠ .idle := by simp [hcs]
    obtain ⟨-, -, heq⟩ | ⟨hcap, heq⟩ := collided_cases draw s <;> rw [heq]
    · exact timerAfterTx { h.releaseHold hb with collisions := fun hne => absurd rfl hne }
    · exact { h with
        held := ⟨fun _ => h.held.1 hbusy, fun _ => nofun⟩
        countdown := fun hne => ⟨rfl, beb_of_backoffTicks_ne_zero hne⟩
        collisions := fun _ hr => Nat.le_of_not_lt fun hlt => hcap ⟨hr, hlt⟩
        unconfigured := fun hv => absurd (h.unconfigured hv).1 hbusy }
  · exact timerAfterTx { h.releaseHold (h.bocnt_eq_zero (by simp [hcs])) with }

theorem respSubstep (h : MidCycle s) (i : Inputs) : MidCycle (respSubstep i s) := by
  obtain ⟨-, heq⟩ | ⟨-, heq⟩ := respSubstep_cases i s <;> rw [heq]
  · exact h
  · exact h.respond _ _

theorem timerCountdown (h : MidCycle s) : MidCycle (timerCountdown s) := by
  obtain ⟨-, heq⟩ | ⟨hrun, hne, heq⟩ | ⟨-, hzero, heq⟩ := timerCountdown_cases s <;> rw [heq]
  · exact h
  · exact { h with timer := ⟨⟨fun _ => hne, fun _ => hrun⟩, h.timer.2⟩ }
  · exact onTimeout { h with timer := timerInvariant_of_stopped rfl hzero }

theorem backoffCountdown (h : MidCycle s) : MidCycle (backoffCountdown s) := by
  obtain ⟨-, hne, heq⟩ | ⟨-, heq⟩ := backoffCountdown_cases s <;> rw [heq]
  · exact { h with countdown := fun _ => h.countdown hne }
  · exact h

theorem tickSubstep (h : MidCycle s) (i : Inputs) : MidCycle (tickSubstep i s) := by
  obtain ⟨-, heq⟩ | ⟨-, heq⟩ := tickSubstep_cases i s <;> rw [heq]
  · exact h
  · exact h.timerCountdown.backoffCountdown

/-- An attempt start finds its frame, since TXPTR is in the window, and latches the codeword of its payload (R102). -/
theorem txStart (h : MidCycle s) (hcs : s.cs = .idle) (hv : s.cfgValid = true) (hlt : s.txptr.toNat < s.next.toNat) :
    ∃ t, txStart s = .next t ∧ MidCycle t ∧ t.cs = .transmitting := by
  obtain ⟨hbt, -, hnl, hwin, hinit⟩ := h.window
  obtain ⟨p, hget⟩ := Buffer.get_of_keys h.buffer hbt (by omega)
  obtain ⟨p', hget', heq⟩ | ⟨hnone, -⟩ := txStart_cases s
  · obtain ⟨hwf, hfit⟩ := h.payloads _ (Buffer.mem_of_get hget')
    have hnext : (s.txptr + 1).toNat = s.txptr.toNat + 1 := h.add_one_toNat (by omega)
    refine ⟨_, heq, { h with
      window := ?_
      held := ⟨fun _ => rfl, fun _ => nofun⟩
      countdown := fun hne => absurd (h.bocnt_eq_zero (by simp [hcs])) hne
      collisions := fun _ _ => Nat.zero_le _
      unconfigured := fun hv' => absurd hv (by simpa using hv')
      holdEmpty := nofun
      holdFromBuffer := fun _ => ⟨hlt, by simp [hget']⟩
      frameWellFormed := h.encodeWith_wellFormed hv hwf hfit }, rfl⟩
    rw [WindowInvariant, hnext]
    exact ⟨Nat.le_succ_of_le hbt, hlt, hnl, hwin, fun hv' => absurd hv (by simpa using hv')⟩
  · simp [hget] at hnone

/-- The end of a backoff presents the held frame again (R110). -/
theorem backoffExit (h : MidCycle s) (hcs : s.cs = .backoff) (hb : s.bocnt = 0) : MidCycle (backoffExit s) := by
  have hbusy : s.cs ≠ .idle := by simp [hcs]
  exact { h with
    held := ⟨fun _ => h.held.1 hbusy, fun _ => nofun⟩
    countdown := fun hne => absurd hb hne
    collisions := fun _ => h.collisions hbusy
    unconfigured := fun hv => absurd (h.unconfigured hv).1 hbusy }

/-- The internal sub-step answers, and brings back all the invariants. -/
theorem internal (h : MidCycle s) : ∃ t, internal s = .next t ∧ Invariants t := by
  obtain ⟨hcs, hb, heq⟩ | ⟨hcs, hv, hlt, heq⟩ | ⟨hbackoff, hstarted, heq⟩ := internal_cases s
  · exact ⟨_, heq, invariants_of_midCycle (h.backoffExit hcs hb) (by simp) (by simp)⟩
  · obtain ⟨t, ht, hmid, hcs'⟩ := h.txStart hcs hv hlt
    exact ⟨t, heq.trans ht, invariants_of_midCycle hmid (by simp [hcs']) (by simp [hcs'])⟩
  · exact ⟨s, heq, invariants_of_midCycle h hbackoff hstarted⟩

end Sys2Proof.Proofs.MidCycle
end

section
/-! PROOFS. The register map of R20: which register stands at an offset. -/

namespace Sys2Proof.Proofs

open Sys2Proof Sys2Proof.Machine

/-- The search among the fixed registers finds each at its own offset, since no two share one. -/
theorem find_fixedRegs_offset : ∀ r ∈ fixedRegs, fixedRegs.find? (fun q => q.offset == r.offset) = some r := by
  decide

/-- The fixed registers stand outside the DATA and RESULT arrays, however large those are. -/
theorem fixedRegs_offset_outside_arrays :
    ∀ r ∈ fixedRegs, r.offset < 0x180 ∨ (0x200 ≤ r.offset ∧ r.offset < 0x280) := by
  decide

/-- A register is one of the fixed ones, or a word of DATA or RESULT. -/
theorem mem_fixedRegs_or_array (r : Reg) : r ∈ fixedRegs ∨ (∃ j, r = .data j) ∨ ∃ j, r = .result j := by
  cases r <;> simp [fixedRegs]

theorem dw_le_of_legal {p : Params} (h : p.legal = true) : p.dw ≤ 32 := by
  obtain ⟨-, hcap, -⟩ := params_legal_iff.1 h
  unfold Params.dw
  omega

theorem find_fixedRegs_eq_none {a : Nat} (h : 0x180 ≤ a ∧ a < 0x200 ∨ 0x280 ≤ a) :
    fixedRegs.find? (fun q => q.offset == a) = none := by
  rw [List.find?_eq_none]
  intro r hr hra
  have := fixedRegs_offset_outside_arrays r hr
  rw [beq_iff_eq] at hra
  omega

theorem regAt_offset_of_mem_fixedRegs (p : Params) {r : Reg} (hr : r ∈ fixedRegs) : regAt p r.offset = some r := by
  rw [regAt, find_fixedRegs_offset r hr]

theorem regAt_data {p : Params} (hp : p.legal = true) {j : Nat} (hj : j < p.dw) :
    regAt p (0x180 + 4 * j) = some (.data j) := by
  have hdw := dw_le_of_legal hp
  rw [regAt, find_fixedRegs_eq_none (by omega), if_pos (by omega), Nat.add_sub_cancel_left,
    Nat.mul_div_cancel_left j (by decide)]

theorem regAt_result {p : Params} (hp : p.legal = true) {j : Nat} (hj : j < p.dw) :
    regAt p (0x280 + 4 * j) = some (.result j) := by
  have hdw := dw_le_of_legal hp
  rw [regAt, find_fixedRegs_eq_none (by omega), if_neg (by omega), if_pos (by omega), Nat.add_sub_cancel_left,
    Nat.mul_div_cancel_left j (by decide)]

theorem exists_of_mem_fixedRegs (p : Params) : ∀ r ∈ fixedRegs, Reg.exists p r = true := by
  simp [fixedRegs, Reg.exists]

/-- What the map reaches at a word-aligned offset is a register that exists, at its own offset. -/
theorem exists_of_regAt {p : Params} {a : Nat} (ha : a % 4 = 0) {r : Reg} (h : regAt p a = some r) :
    Reg.exists p r = true ∧ r.offset = a := by
  unfold regAt at h
  split at h
  · next q hf =>
    obtain rfl : q = r := Option.some.inj h
    exact ⟨exists_of_mem_fixedRegs p q (List.mem_of_find?_eq_some hf), by simpa using List.find?_some hf⟩
  · split_ifs at h with hd hr
    · obtain rfl := Option.some.inj h
      exact ⟨by simp only [Reg.exists, decide_eq_true_eq]; omega, by simp only [Reg.offset]; omega⟩
    · obtain rfl := Option.some.inj h
      exact ⟨by simp only [Reg.exists, decide_eq_true_eq]; omega, by simp only [Reg.offset]; omega⟩

theorem regAt_eq_some_iff {p : Params} (hp : p.legal = true) {a : Nat} (ha : a % 4 = 0) {r : Reg} :
    regAt p a = some r ↔ Reg.exists p r = true ∧ r.offset = a := by
  refine ⟨exists_of_regAt ha, ?_⟩
  rintro ⟨hex, rfl⟩
  obtain hr | ⟨j, rfl⟩ | ⟨j, rfl⟩ := mem_fixedRegs_or_array r
  · exact regAt_offset_of_mem_fixedRegs p hr
  · exact regAt_data hp (by simpa [Reg.exists] using hex)
  · exact regAt_result hp (by simpa [Reg.exists] using hex)

/-- Settles O42: the offsets are those of the definition, and the search of the map is inverted register by register. -/
theorem registerMapHasOneRegisterPerOffset : Obligations.RegisterMapHasOneRegisterPerOffset := by
  refine ⟨by decide, fun j => ⟨rfl, rfl⟩, fun p j => ⟨decide_eq_true_iff, decide_eq_true_iff⟩,
    fun p r hd hr => ?_, fun p a r hp ha => regAt_eq_some_iff hp ha⟩
  obtain hmem | ⟨j, rfl⟩ | ⟨j, rfl⟩ := mem_fixedRegs_or_array r
  · exact exists_of_mem_fixedRegs p r hmem
  · exact absurd rfl (hd j)
  · exact absurd rfl (hr j)

end Sys2Proof.Proofs
end

section
/-! PROOFS. The bus sub-step and the whole step under the invariants, and the state after reset. -/

namespace Sys2Proof.Proofs

open Sys2Proof Sys2Proof.Machine Sys2Proof.Safety

/-- A host word written inside DATA's width leaves no bit above it (R38). -/
theorem setHostWord_lt_two_pow {v : Bits} {n j : Nat} (w : Word) (hv : v.toNat < 2 ^ n) (hj : 32 + 32 * j ≤ n) :
    (setHostWord v j w).toNat < 2 ^ n := by
  refine or_lt_two_pow ?_ ?_
  · rw [BitVec.toNat_and]
    exact Nat.lt_of_le_of_lt Nat.and_le_left hv
  · have hw : (w.setWidth 1024).toNat < 2 ^ 32 := by
      rw [BitVec.toNat_setWidth_of_le (by decide)]
      exact w.isLt
    exact Nat.lt_of_lt_of_le (shiftLeft_lt_two_pow hw) (Nat.pow_le_pow_right (by decide) hj)

namespace MidCycle

variable {s : State}

/-- A storage write to a register that exists keeps DATA within BMAX bits; the staged configuration and the flags
are free. -/
theorem writeReg (h : MidCycle s) {r : Reg} (hr : Reg.exists s.params r = true) (w : Word) :
    MidCycle (writeReg s r w) := by
  have hdata : (Machine.writeReg s r w).data.bits >>> s.params.bmax = 0 := by
    cases r with
    | data j =>
      have hj : j < s.params.dw := by simpa [Reg.exists] using hr
      rw [Params.dw] at hj
      have hold := h.dataWidth
      rw [shiftRight_eq_zero_iff] at hold ⊢
      exact setHostWord_lt_two_pow w hold (by omega)
    | _ => exact h.dataWidth
  rw [writeReg_frame]
  exact { h with dataWidth := hdata }

theorem busSubstep (h : MidCycle s) (i : Inputs) : ∃ t, busSubstep i s = .next t ∧ MidCycle t := by
  have hout : ∀ o, MidCycle (s.setOut o) := fun o => { h with }
  obtain ⟨-, heq⟩ | ⟨-, -, -, heq⟩ | ⟨r, -, -, -, heq⟩ | ⟨-, -, -, heq⟩ | ⟨r, -, -, -, ht, heq⟩ := busSubstep_cases i s
  · exact ⟨_, heq, hout _⟩
  · exact ⟨_, heq, hout _⟩
  · exact ⟨_, heq, hout _⟩
  · rw [heq]
    exact (hout _).exec _
  · obtain ⟨-, halign, hat, -⟩ := busTarget_eq_ok_iff.1 ht
    exact ⟨_, heq, (hout BusOut.zero).writeReg (exists_of_regAt halign hat).1 _⟩

end MidCycle

/-- The state after reset meets all the invariants: nothing is configured, so nothing waits. -/
theorem invariants_resetFor {p : Params} (hp : p.legal = true) : Invariants (State.resetFor p) :=
  invariants_of_midCycle (MidCycle.resetFor hp) (by simp [State.resetFor]) (by simp [State.resetFor])

/-- A step from a state that meets the invariants answers, and the next state meets them. -/
theorem step_of_invariants {s : State} (h : Invariants s) : ∃ t, step s = .next t ∧ Invariants t := by
  have hmid := midCycle_of_invariants h
  cases hrst : s.currentInputs.rst with
  | true =>
    refine ⟨_, runCycle_eq_next.2 (.inl ⟨hrst, rfl⟩), ?_⟩
    have hreset := invariants_resetFor h.legal
    exact { hreset with }
  | false =>
    obtain ⟨s1, hbus, hmid1⟩ := MidCycle.busSubstep (s := s.consumeInputs) { hmid with } s.currentInputs
    obtain ⟨t, hint, ht⟩ := ((hmid1.respSubstep s.currentInputs).tickSubstep s.currentInputs).internal
    exact ⟨t, runCycle_eq_next.2 (.inr ⟨hrst, s1, hbus, hint⟩), ht⟩

/-- Settles O8: every sub-step keeps the mid-cycle part of the invariants, and the internal sub-step brings back the
rest. -/
theorem everyStepKeepsTheInvariants : Obligations.EveryStepKeepsTheInvariants := by
  intro s t h hstep
  obtain ⟨t', hstep', ht'⟩ := step_of_invariants h
  rw [hstep'] at hstep
  injection hstep with heq
  exact heq ▸ ht'

/-- Settles O7: a state after reset is that of a new session with nothing configured. -/
theorem resetStateMeetsTheInvariants : Obligations.ResetStateMeetsTheInvariants :=
  ⟨invariants_resetFor (by decide), fun _ hp => invariants_resetFor hp⟩

end Sys2Proof.Proofs
end

section
/-! PROOFS. What the response, tick and internal sub-steps of a cycle leave unchanged, and that they only raise flags. -/

namespace Sys2Proof.Proofs

open Sys2Proof Sys2Proof.Machine Sys2Proof.Safety

/-! ### The elements they leave alone -/

/-- A state with every element that a later sub-step than the bus access may write put at a fixed value, so that two
states have the same image exactly when they agree on all the others: parameters, configurations, DATA, RESULT, LAST,
VERDICT, BASE, NEXT, BUF and the model's own fields. -/
def outsideChannel (s : State) : State :=
  { s with
    flags := StickyFlags.clear, txptr := 0, tmr := 0, tmrRun := false, cs := .idle, txh := TxHold.none
    coll := 0, bocnt := 0, counters := Counters.zero }

/-- Two states of the same image agree on everything a function reads outside the channel's elements. -/
theorem eq_of_outsideChannel {α : Type} (f : State → α) {s t : State} (h : outsideChannel t = outsideChannel s)
    (hf : ∀ u, f (outsideChannel u) = f u := by intro _; rfl) : f t = f s := by
  rw [← hf t, h, hf s]

theorem timerAfterTx_outsideChannel (s : State) : outsideChannel (timerAfterTx s) = outsideChannel s := by
  obtain ⟨-, -, heq⟩ | ⟨-, heq⟩ := timerAfterTx_cases s
  · rw [heq]; rfl
  · rw [heq]

/-- A timeout writes TXPTR, the timer, a counter and a flag (R117). -/
theorem onTimeout_frame (s : State) :
    onTimeout s = { s with
      txptr := (onTimeout s).txptr, tmr := (onTimeout s).tmr, tmrRun := (onTimeout s).tmrRun
      counters := (onTimeout s).counters, flags := (onTimeout s).flags } := by
  obtain ⟨-, heq⟩ | ⟨-, heq⟩ := onTimeout_cases s <;> rw [heq]

theorem onTimeout_outsideChannel (s : State) : outsideChannel (onTimeout s) = outsideChannel s := by
  rw [onTimeout_frame]
  rfl

theorem respond_outsideChannel (collision : Bool) (draw : BitVec 10) (s : State) :
    outsideChannel (respond collision draw s) = outsideChannel s := by
  obtain ⟨-, heq⟩ | ⟨-, -, heq⟩ | ⟨-, -, heq⟩ := respond_cases collision draw s <;> rw [heq]
  · rfl
  · obtain ⟨-, -, heq⟩ | ⟨-, heq⟩ := collided_cases draw s <;> rw [heq]
    · exact timerAfterTx_outsideChannel _
    · rfl
  · exact timerAfterTx_outsideChannel _

theorem respSubstep_outsideChannel (i : Inputs) (s : State) : outsideChannel (respSubstep i s) = outsideChannel s := by
  obtain ⟨-, heq⟩ | ⟨-, heq⟩ := respSubstep_cases i s <;> rw [heq]
  exact respond_outsideChannel _ _ _

theorem tickSubstep_outsideChannel (i : Inputs) (s : State) : outsideChannel (tickSubstep i s) = outsideChannel s := by
  have htimer : outsideChannel (timerCountdown s) = outsideChannel s := by
    obtain ⟨-, heq⟩ | ⟨-, -, heq⟩ | ⟨-, -, heq⟩ := timerCountdown_cases s <;> rw [heq]
    · rfl
    · exact onTimeout_outsideChannel _
  obtain ⟨-, heq⟩ | ⟨-, heq⟩ := tickSubstep_cases i s <;> rw [heq]
  obtain ⟨-, -, heq⟩ | ⟨-, heq⟩ := backoffCountdown_cases (timerCountdown s) <;> rw [heq]
  · exact htimer
  · exact htimer

/-- The internal sub-step writes TXPTR and the unit's elements but BOCNT (R102, R110). -/
theorem internal_frame {s t : State} (h : internal s = .next t) :
    t = { s with txptr := t.txptr, cs := t.cs, txh := t.txh, coll := t.coll } := by
  obtain ⟨-, -, heq⟩ | ⟨-, -, -, heq⟩ | ⟨-, -, heq⟩ := internal_cases s <;> rw [heq] at h
  · cases h
    rfl
  · obtain ⟨p, -, heq⟩ | ⟨-, heq⟩ := txStart_cases s <;> rw [heq] at h <;> cases h
    rfl
  · cases h
    rfl

theorem internal_outsideChannel {s t : State} (h : internal s = .next t) : outsideChannel t = outsideChannel s := by
  rw [internal_frame h]
  rfl

/-! ### The flags they raise -/

/-- No flag is lower in b than in a. -/
def FlagsLe (a b : StickyFlags) : Prop :=
  a.invAck ≤ b.invAck ∧ a.abort ≤ b.abort ∧ a.tout ≤ b.tout ∧ a.spur ≤ b.spur

theorem FlagsLe.refl (a : StickyFlags) : FlagsLe a a := ⟨le_rfl, le_rfl, le_rfl, le_rfl⟩

theorem FlagsLe.trans {a b c : StickyFlags} : FlagsLe a b → FlagsLe b c → FlagsLe a c
  | ⟨h1, h2, h3, h4⟩, ⟨k1, k2, k3, k4⟩ => ⟨h1.trans k1, h2.trans k2, h3.trans k3, h4.trans k4⟩

theorem timerAfterTx_flags (s : State) : (timerAfterTx s).flags = s.flags := by
  obtain ⟨-, -, heq⟩ | ⟨-, heq⟩ := timerAfterTx_cases s
  · rw [heq, State.loadTimer_flags]
  · rw [heq]

theorem onTimeout_flagsLe (s : State) : FlagsLe s.flags (onTimeout s).flags := by
  obtain ⟨-, heq⟩ | ⟨-, heq⟩ := onTimeout_cases s <;> rw [heq]
  · exact .refl _
  · exact ⟨le_rfl, le_rfl, Bool.le_true _, le_rfl⟩

theorem respSubstep_flagsLe (i : Inputs) (s : State) : FlagsLe s.flags (respSubstep i s).flags := by
  obtain ⟨-, heq⟩ | ⟨-, heq⟩ := respSubstep_cases i s <;> rw [heq]
  · exact .refl _
  obtain ⟨-, heq⟩ | ⟨-, -, heq⟩ | ⟨-, -, heq⟩ := respond_cases i.respCollision i.boDraw s <;> rw [heq]
  · exact ⟨le_rfl, le_rfl, le_rfl, Bool.le_true _⟩
  · obtain ⟨-, -, heq⟩ | ⟨-, heq⟩ := collided_cases i.boDraw s <;> rw [heq]
    · rw [abort, timerAfterTx_flags]
      exact ⟨le_rfl, Bool.le_true _, le_rfl, le_rfl⟩
    · exact .refl _
  · rw [sent, timerAfterTx_flags]
    exact .refl _

theorem tickSubstep_flagsLe (i : Inputs) (s : State) : FlagsLe s.flags (tickSubstep i s).flags := by
  obtain ⟨-, heq⟩ | ⟨-, heq⟩ := tickSubstep_cases i s <;> rw [heq]
  · exact .refl _
  have hbackoff (u : State) : (backoffCountdown u).flags = u.flags := by
    obtain ⟨-, -, heq⟩ | ⟨-, heq⟩ := backoffCountdown_cases u <;> rw [heq]
  rw [hbackoff]
  obtain ⟨-, heq⟩ | ⟨-, -, heq⟩ | ⟨-, -, heq⟩ := timerCountdown_cases s <;> rw [heq]
  · exact .refl _
  · exact .refl _
  · exact onTimeout_flagsLe { s with tmr := s.tmr - 1, tmrRun := false }

/-- A step without reset is its bus access, and then the later sub-steps leave everything outside the channel's elements
alone and lower no flag. -/
theorem step_eq_busSubstep_outsideChannel {s t : State} (h : step s = .next t) (hrst : s.currentInputs.rst = false) :
    ∃ s1, busSubstep s.currentInputs s.consumeInputs = .next s1 ∧ outsideChannel t = outsideChannel s1
      ∧ FlagsLe s1.flags t.flags := by
  obtain ⟨hrst', -⟩ | ⟨-, s1, hbus, hint⟩ := runCycle_eq_next.1 h
  · simp [hrst] at hrst'
  refine ⟨s1, hbus, ?_, ?_⟩
  · rw [internal_outsideChannel hint, tickSubstep_outsideChannel, respSubstep_outsideChannel]
  · rw [internal_frame hint]
    exact (respSubstep_flagsLe _ _).trans (tickSubstep_flagsLe _ _)

end Sys2Proof.Proofs
end

section
/-! PROOFS. What the commands and the bus access write: the parameters are fixed (R15), each result has one writer (R16, R19, R37), and only the host clears a sticky flag (R19). -/

namespace Sys2Proof.Proofs

open Sys2Proof Sys2Proof.Machine Sys2Proof.Safety

/-- Every result that differs between two states has its one writer among the commands run, and what that writer
reports. -/
structure WritersOf (runs : Instr → Prop) (s t : State) : Prop where
  verdict : t.verdict ≠ s.verdict → runs .verify
  result : t.result ≠ s.result → runs .encode ∧ t.last = .ok
  config : (t.act ≠ s.act ∨ t.cfgValid ≠ s.cfgValid) →
    runs .configure ∧ t.last = .ok ∧ t.act = s.cfg ∧ t.cfgValid = true

/-- Where no result changes, no writer is needed. -/
theorem writersOf_of_eq {runs : Instr → Prop} {s t : State} (hv : t.verdict = s.verdict) (hr : t.result = s.result)
    (ha : t.act = s.act) (hc : t.cfgValid = s.cfgValid) : WritersOf runs s t :=
  ⟨fun h => absurd hv h, fun h => absurd hr h, fun h => h.elim (absurd ha) (absurd hc)⟩

/-! ### Commands -/

/-- ACK inside the window writes the window's elements and the timer (R119). -/
theorem ackAccepted_frame (ack : BitVec 16) (s : State) :
    ackAccepted ack s = { s with
      buf := (ackAccepted ack s).buf, base := (ackAccepted ack s).base, txptr := (ackAccepted ack s).txptr
      tmr := (ackAccepted ack s).tmr, tmrRun := (ackAccepted ack s).tmrRun } := by
  obtain ⟨-, heq⟩ | ⟨-, -, heq⟩ | ⟨-, -, heq⟩ := ackAccepted_cases ack s <;> rw [heq] <;> rfl

/-- What a command leaves alone: its operands, the parameters and the model's own fields, every flag that is set, and
every result it is not the writer of. -/
structure CommandFrame (c : Instr) (s t : State) : Prop where
  data : t.data = s.data
  cfg : t.cfg = s.cfg
  params : t.params = s.params
  inputs : t.inputs = s.inputs
  out : t.out = s.out
  flags : FlagsLe s.flags t.flags
  writers : WritersOf (c = ·) s t

/-- The elements that SEND, ACK, TIMEOUT, TEARDOWN and a report in LAST leave alone. -/
def operandsAndResults (s : State) :
    (BitString × ConfigRegs × Params × List Inputs × BusOut) × Bool × BitString × ConfigRegs × Bool :=
  ((s.data, s.cfg, s.params, s.inputs, s.out), s.verdict, s.result, s.act, s.cfgValid)

theorem commandFrame_of_eq {c : Instr} {s t : State} (h : operandsAndResults t = operandsAndResults s)
    (hf : FlagsLe s.flags t.flags) : CommandFrame c s t := by
  simp only [operandsAndResults, Prod.mk.injEq] at h
  obtain ⟨⟨hdata, hcfg, hparams, hinputs, hout⟩, hverdict, hresult, hact, hvalid⟩ := h
  exact ⟨hdata, hcfg, hparams, hinputs, hout, hf, writersOf_of_eq hverdict hresult hact hvalid⟩

theorem setStatus_commandFrame (c : Instr) (s : State) (code : StatusCode) : CommandFrame c s (s.setStatus code) :=
  commandFrame_of_eq rfl (.refl _)

/-- Every command answers, within its frame (R8, R16, R19, R37). -/
theorem exec_commandFrame (c : Instr) (s : State) : ∃ t, exec c s = .next t ∧ CommandFrame c s t := by
  cases c with
  | nop => exact ⟨_, rfl, setStatus_commandFrame _ _ _⟩
  | encode =>
    obtain ⟨code, -, heq⟩ | ⟨-, -, -, heq⟩ := execEncode_cases s
    · exact ⟨_, heq, setStatus_commandFrame _ _ _⟩
    · exact ⟨_, heq, rfl, rfl, rfl, rfl, rfl, .refl _,
        fun hv => absurd rfl hv, fun _ => ⟨rfl, rfl⟩, fun ha => absurd ha (by simp)⟩
  | verify =>
    obtain ⟨v, code, heq⟩ := execVerify_cases s
    exact ⟨_, heq, rfl, rfl, rfl, rfl, rfl, .refl _,
      fun _ => rfl, fun hr => absurd rfl hr, fun ha => absurd ha (by simp)⟩
  | send =>
    obtain ⟨code, -, heq⟩ | ⟨-, -, -, -, -, heq⟩ := execSend_cases s
    · exact ⟨_, heq, setStatus_commandFrame _ _ _⟩
    · exact ⟨_, heq, commandFrame_of_eq rfl (.refl _)⟩
  | ack arg =>
    obtain ⟨-, -, heq⟩ | heq := execAck_cases arg s
    · rw [ackAccepted_frame] at heq
      exact ⟨_, heq, commandFrame_of_eq rfl (.refl _)⟩
    · exact ⟨_, heq, commandFrame_of_eq rfl ⟨Bool.le_true _, le_rfl, le_rfl, le_rfl⟩⟩
  | timeout =>
    have hframe : operandsAndResults (onTimeout s) = operandsAndResults s := by
      rw [onTimeout_frame]
      rfl
    exact ⟨_, rfl, commandFrame_of_eq hframe (onTimeout_flagsLe s)⟩
  | configure =>
    obtain ⟨code, -, heq⟩ | ⟨-, -, -, heq⟩ := execConfigure_cases s
    · exact ⟨_, heq, setStatus_commandFrame _ _ _⟩
    · exact ⟨_, heq, rfl, rfl, rfl, rfl, rfl, .refl _,
        fun hv => absurd rfl hv, fun hr => absurd rfl hr, fun _ => ⟨rfl, rfl, rfl, rfl⟩⟩
  | teardown => exact ⟨_, rfl, commandFrame_of_eq rfl (.refl _)⟩
  | illegal w => exact ⟨_, rfl, setStatus_commandFrame _ _ _⟩

/-! ### The bus access -/

/-- What a bus access leaves alone: the parameters, every result whose writer it does not run, and every flag that is
set, unless it is a write to STATUS, which clears the flags it selects. -/
structure BusFrame (i : Inputs) (s t : State) : Prop where
  params : t.params = s.params
  writers : WritersOf (runsCommand s.params i) s t
  flags : FlagsLe s.flags t.flags ∨ (accesses s.params i true .status ∧ t.flags = (clearFlags i.busWdata s).flags)

theorem setOut_busFrame (i : Inputs) (s : State) (o : BusOut) : BusFrame i s (s.setOut o) :=
  ⟨rfl, writersOf_of_eq rfl rfl rfl rfl, .inl (.refl _)⟩

theorem writeReg_flags {r : Reg} (hr : r ≠ .status) (s : State) (w : Word) : (writeReg s r w).flags = s.flags := by
  cases r with
  | status => exact absurd rfl hr
  | _ => rfl

/-- In a cycle without reset the bus access answers, within its frame. -/
theorem busSubstep_busFrame {i : Inputs} (hrst : i.rst = false) (s : State) :
    ∃ t, busSubstep i s = .next t ∧ BusFrame i s t := by
  obtain ⟨-, heq⟩ | ⟨-, -, -, heq⟩ | ⟨r, -, -, -, heq⟩ | ⟨hv, hw, ht, heq⟩ | ⟨r, -, hv, hw, ht, heq⟩ :=
    busSubstep_cases i s
  · exact ⟨_, heq, setOut_busFrame _ _ _⟩
  · exact ⟨_, heq, setOut_busFrame _ _ _⟩
  · exact ⟨_, heq, setOut_busFrame _ _ _⟩
  · obtain ⟨t, hexec, hframe⟩ := exec_commandFrame (decodeWord i.busWdata) (s.setOut BusOut.zero)
    obtain ⟨hverdict, hresult, hconfig⟩ := hframe.writers
    have hacc : accesses s.params i true .cmd := ⟨hrst, hv, hw, hw ▸ ht⟩
    exact ⟨t, heq.trans hexec, hframe.params, ⟨fun hne => ⟨hacc, hverdict hne⟩,
      fun hne => (hresult hne).imp_left fun hc => ⟨hacc, hc⟩,
      fun hne => (hconfig hne).imp_left fun hc => ⟨hacc, hc⟩⟩, .inl hframe.flags⟩
  · have hflags : FlagsLe s.flags (writeReg (s.setOut BusOut.zero) r i.busWdata).flags
        ∨ (accesses s.params i true .status
          ∧ (writeReg (s.setOut BusOut.zero) r i.busWdata).flags = (clearFlags i.busWdata s).flags) := by
      by_cases hr : r = .status
      · subst hr
        exact .inr ⟨⟨hrst, hv, hw, hw ▸ ht⟩, rfl⟩
      · rw [writeReg_flags hr]
        exact .inl (.refl _)
    refine ⟨_, heq, ?_, ?_, hflags⟩ <;> rw [writeReg_frame]
    · rfl
    · exact writersOf_of_eq rfl rfl rfl rfl

/-- A step without reset is its bus access, within its frame, and then the later sub-steps. -/
theorem step_busFrame {s t : State} (h : step s = .next t) (hrst : s.currentInputs.rst = false) :
    ∃ s1, BusFrame s.currentInputs s.consumeInputs s1 ∧ outsideChannel t = outsideChannel s1
      ∧ FlagsLe s1.flags t.flags := by
  obtain ⟨s1, hbus, hrest, hflags⟩ := step_eq_busSubstep_outsideChannel h hrst
  obtain ⟨s2, hbus', hframe⟩ := busSubstep_busFrame hrst s.consumeInputs
  cases hbus.symm.trans hbus'
  exact ⟨s1, hframe, hrest, hflags⟩

/-! ### Who writes what in a step -/

/-- Settles O12: reset keeps the parameters by its definition, and no sub-step writes them. -/
theorem noStepChangesTheParameters : Obligations.NoStepChangesTheParameters := by
  intro s t h
  cases hrst : s.currentInputs.rst with
  | true =>
    obtain ⟨-, rfl⟩ | ⟨hrst', -⟩ := runCycle_eq_next.1 h
    · rfl
    · simp [hrst] at hrst'
  | false =>
    obtain ⟨s1, hframe, hrest, -⟩ := step_busFrame h hrst
    rw [eq_of_outsideChannel State.params hrest, hframe.params, State.consumeInputs_params]

/-- Settles O56: only commands write the results, each its own, and the later sub-steps leave them alone. -/
theorem eachResultHasOneWriter : Obligations.EachResultHasOneWriter := by
  intro s t h hrst
  obtain ⟨s1, hframe, hrest, -⟩ := step_busFrame h hrst
  rw [eq_of_outsideChannel State.verdict hrest, eq_of_outsideChannel State.result hrest,
    eq_of_outsideChannel State.act hrest, eq_of_outsideChannel State.cfgValid hrest,
    eq_of_outsideChannel State.last hrest]
  obtain ⟨hverdict, hresult, hconfig⟩ := hframe.writers
  exact ⟨hverdict, hresult, hconfig⟩

/-- A flag that no sub-step lowers does not go from 1 to 0. -/
theorem not_lowered {before after : Bool} (hle : before ≤ after) (h : before = true ∧ after = false) : False := by
  rw [h.1, h.2] at hle
  exact absurd hle (by decide)

/-- A flag that goes from 1 to 0 across a clear, which nothing lowers afterwards, has its bit written 1. -/
theorem selected_of_cleared {before bit after : Bool} (hle : (before && !bit) ≤ after)
    (h : before = true ∧ after = false) : bit = true := by
  cases bit with
  | false => exact (not_lowered (by simpa using hle) h).elim
  | true => rfl

/-- Settles O57: a later sub-step only raises flags, and the bus clears none but those a write to STATUS selects. -/
theorem onlyTheHostClearsAFlag : Obligations.OnlyTheHostClearsAFlag := by
  intro s t h hrst
  obtain ⟨s1, hframe, -, hrest⟩ := step_busFrame h hrst
  obtain hle | ⟨hacc, hclear⟩ := hframe.flags
  · obtain ⟨hinv, habort, htout, hspur⟩ := hle.trans hrest
    exact ⟨fun hf => (not_lowered hinv hf).elim, fun hf => (not_lowered habort hf).elim,
      fun hf => (not_lowered htout hf).elim, fun hf => (not_lowered hspur hf).elim⟩
  · rw [hclear] at hrest
    obtain ⟨hinv, habort, htout, hspur⟩ := hrest
    exact ⟨fun hf => ⟨hacc, selected_of_cleared hinv hf⟩, fun hf => ⟨hacc, selected_of_cleared habort hf⟩,
      fun hf => ⟨hacc, selected_of_cleared htout hf⟩, fun hf => ⟨hacc, selected_of_cleared hspur hf⟩⟩

end Sys2Proof.Proofs
end

section
/-! PROOFS. No rule reads a flag or a statistics counter (R19, R30, R124): cycles of two states that differ in those alone answer alike. -/

namespace Sys2Proof.Proofs

open Sys2Proof Sys2Proof.Machine Sys2Proof.Safety

/-- The second state differs from the first in its flags, statistics counters and bus outputs at most. -/
def SameButReports (s t : State) : Prop := ∃ f c o, t = { s with flags := f, counters := c, out := o }

/-- Where the first outcome is a next state, the second is one too, and they differ in the reports at most. -/
def Alike (o o' : Host.Outcome State Fault Refusal) : Prop :=
  ∀ s, o = .next s → ∃ t, o' = .next t ∧ SameButReports s t

theorem SameButReports.ite {p : Prop} [Decidable p] {s s' t t' : State} (h : SameButReports s s')
    (k : SameButReports t t') : SameButReports (if p then s else t) (if p then s' else t') := by
  split
  · exact h
  · exact k

namespace Alike

theorem next {s t : State} (h : SameButReports s t) : Alike (.next s) (.next t) := by
  rintro _ ⟨⟩
  exact ⟨t, rfl, h⟩

theorem fault (r r' : Fault) : Alike (.fault r) (.fault r') := by
  intro _ h
  cases h

theorem ite {p : Prop} [Decidable p] {o o' q q' : Host.Outcome State Fault Refusal} (h : Alike o o')
    (k : Alike q q') : Alike (if p then o else q) (if p then o' else q') := by
  split
  · exact h
  · exact k

theorem andThen {o o' : Host.Outcome State Fault Refusal} {f : State → Host.Outcome State Fault Refusal}
    (h : Alike o o') (hf : ∀ s t, SameButReports s t → Alike (f s) (f t)) :
    Alike (andThen o f) (andThen o' f) := by
  intro u hu
  obtain ⟨s, rfl, hs⟩ := andThen_eq_next.1 hu
  obtain ⟨t, rfl, hst⟩ := h s rfl
  exact hf s t hst u hs

end Alike

/-! ### The sub-steps, each a choice by elements outside the reports -/

variable {s t : State}

theorem timerAfterTx_same (h : SameButReports s t) : SameButReports (timerAfterTx s) (timerAfterTx t) := by
  obtain ⟨f, c, o, rfl⟩ := h
  exact .ite ⟨f, c, o, rfl⟩ ⟨f, c, o, rfl⟩

theorem onTimeout_same (h : SameButReports s t) : SameButReports (onTimeout s) (onTimeout t) := by
  obtain ⟨f, c, o, rfl⟩ := h
  exact .ite ⟨f, c, o, rfl⟩ ⟨_, _, o, rfl⟩

theorem respond_same (collision : Bool) (draw : BitVec 10) (h : SameButReports s t) :
    SameButReports (respond collision draw s) (respond collision draw t) := by
  obtain ⟨f, c, o, rfl⟩ := h
  have hcollided : SameButReports (collided draw s) (collided draw { s with flags := f, counters := c, out := o }) :=
    .ite (timerAfterTx_same ⟨_, _, o, rfl⟩) ⟨f, _, o, rfl⟩
  exact .ite ⟨_, c, o, rfl⟩ (.ite hcollided (timerAfterTx_same ⟨f, _, o, rfl⟩))

theorem timerCountdown_same (h : SameButReports s t) : SameButReports (timerCountdown s) (timerCountdown t) := by
  obtain ⟨f, c, o, rfl⟩ := h
  exact .ite (.ite (onTimeout_same ⟨f, c, o, rfl⟩) ⟨f, c, o, rfl⟩) ⟨f, c, o, rfl⟩

theorem backoffCountdown_same (h : SameButReports s t) : SameButReports (backoffCountdown s) (backoffCountdown t) := by
  obtain ⟨f, c, o, rfl⟩ := h
  exact .ite ⟨f, c, o, rfl⟩ ⟨f, c, o, rfl⟩

theorem respSubstep_same (i : Inputs) (h : SameButReports s t) : SameButReports (respSubstep i s) (respSubstep i t) :=
  .ite (respond_same _ _ h) h

theorem tickSubstep_same (i : Inputs) (h : SameButReports s t) : SameButReports (tickSubstep i s) (tickSubstep i t) :=
  .ite (backoffCountdown_same (timerCountdown_same h)) h

theorem txStart_alike (h : SameButReports s t) : Alike (txStart s) (txStart t) := by
  obtain ⟨f, c, o, rfl⟩ := h
  unfold txStart
  cases Buffer.get s.buf s.txptr.toNat with
  | some p => exact .next ⟨f, c, o, rfl⟩
  | none => exact .fault _ _

theorem internal_alike (h : SameButReports s t) : Alike (internal s) (internal t) := by
  have htx := txStart_alike h
  obtain ⟨f, c, o, rfl⟩ := h
  exact .ite (.next ⟨f, c, o, rfl⟩) (.ite htx (.next ⟨f, c, o, rfl⟩))

theorem sessionReset_same (h : SameButReports s t) : SameButReports (sessionReset s) (sessionReset t) := by
  obtain ⟨f, c, o, rfl⟩ := h
  exact ⟨f, c, o, rfl⟩

theorem ackAccepted_same (ack : BitVec 16) (h : SameButReports s t) :
    SameButReports (ackAccepted ack s) (ackAccepted ack t) := by
  obtain ⟨f, c, o, rfl⟩ := h
  exact .ite ⟨f, c, o, rfl⟩ (.ite ⟨f, c, o, rfl⟩ ⟨f, c, o, rfl⟩)

theorem setStatus_same (code : StatusCode) (h : SameButReports s t) :
    SameButReports (s.setStatus code) (t.setStatus code) := by
  obtain ⟨f, c, o, rfl⟩ := h
  exact ⟨f, c, o, rfl⟩

theorem exec_alike (i : Instr) (h : SameButReports s t) : Alike (exec i s) (exec i t) := by
  have hstatus (code : StatusCode) : Alike (.next (s.setStatus code)) (.next (t.setStatus code)) :=
    .next (setStatus_same code h)
  have htimeout := setStatus_same .ok (onTimeout_same h)
  have hteardown := setStatus_same .ok (sessionReset_same h)
  have hack (ack : BitVec 16) := setStatus_same .ok (ackAccepted_same ack h)
  obtain ⟨f, c, o, rfl⟩ := h
  cases i with
  | nop => exact hstatus _
  | encode => exact .ite (hstatus _) (.ite (hstatus _) (.ite (hstatus _) (.next ⟨f, c, o, rfl⟩)))
  | verify => exact .ite (.next ⟨f, c, o, rfl⟩) (.ite (.next ⟨f, c, o, rfl⟩) (.next ⟨f, c, o, rfl⟩))
  | send =>
    exact .ite (hstatus _) (.ite (hstatus _) (.ite (hstatus _) (.ite (hstatus _) (.next ⟨f, c, o, rfl⟩))))
  | ack arg => exact .ite (.next (hack arg)) (.next ⟨_, _, o, rfl⟩)
  | timeout => exact .next htimeout
  | configure => exact .ite (hstatus _) (.ite (hstatus _) (.next ⟨f, c, o, rfl⟩))
  | teardown => exact .next hteardown
  | illegal w => exact hstatus _

theorem writeReg_same (r : Reg) (w : Word) (h : SameButReports s t) :
    SameButReports (writeReg s r w) (writeReg t r w) := by
  obtain ⟨f, c, o, rfl⟩ := h
  cases r <;> exact ⟨_, c, o, rfl⟩

theorem busSubstep_alike (i : Inputs) (h : SameButReports s t) : Alike (busSubstep i s) (busSubstep i t) := by
  obtain ⟨f, c, o, rfl⟩ := h
  have hidle : SameButReports (s.setOut BusOut.zero)
      (State.setOut BusOut.zero { s with flags := f, counters := c, out := o }) := ⟨f, c, _, rfl⟩
  unfold busSubstep
  refine .ite (.next hidle) ?_
  dsimp only
  cases busTarget s.params i.busWrite i.busAddr i.busSize with
  | error e => exact .next ⟨f, c, _, rfl⟩
  | ok r => exact .ite (.next ⟨f, c, _, rfl⟩) (.ite (exec_alike _ hidle) (.next (writeReg_same r _ hidle)))

theorem runCycle_alike (i : Inputs) (h : SameButReports s t) : Alike (runCycle i s) (runCycle i t) := by
  have hbus := busSubstep_alike i h
  have hreset : SameButReports (resetAll s) (resetAll t) := by
    obtain ⟨f, c, o, rfl⟩ := h
    exact ⟨_, _, _, rfl⟩
  exact .ite (.next hreset) (hbus.andThen fun u v huv =>
    internal_alike (tickSubstep_same i (respSubstep_same i huv)))

/-- Settles O58: each sub-step chooses by elements outside the reports, so both states take the same choices. -/
theorem flagsAndCountersInfluenceNothing : Obligations.FlagsAndCountersInfluenceNothing := by
  intro s t f c h
  have hsame : SameButReports s.consumeInputs { s with flags := f, counters := c }.consumeInputs := ⟨f, c, s.out, rfl⟩
  obtain ⟨t', hstep, f', c', o', rfl⟩ := runCycle_alike s.currentInputs hsame t h
  exact ⟨f', c', o', hstep⟩

end Sys2Proof.Proofs
end

section
/-! PROOFS. Runs of collisions in NONE mode: each below the retry cap presents the frame again, and the next one aborts it (R34, R106, R107). -/

namespace Sys2Proof.Proofs

open Sys2Proof Sys2Proof.Machine Sys2Proof.Safety

/-! ### Runs -/

theorem runSteps_add (m n : Nat) (s : State) : runSteps (m + n) s = andThen (runSteps m s) (runSteps n) := by
  induction m generalizing s with
  | zero => rw [Nat.zero_add, runSteps, andThen_next]
  | succ m ih =>
    rw [Nat.succ_add, runSteps, runSteps]
    cases step s with
    | next t => exact ih t
    | fault r => rfl
    | refused r => rfl

/-- A run from a state that meets the invariants does not stop, and ends in such a state. -/
theorem runSteps_of_invariants (n : Nat) {s : State} (h : Invariants s) :
    ∃ t, runSteps n s = .next t ∧ Invariants t := by
  induction n generalizing s with
  | zero => exact ⟨s, rfl, h⟩
  | succ n ih =>
    obtain ⟨t, hstep, ht⟩ := step_of_invariants h
    obtain ⟨u, hrun, hu⟩ := ih ht
    exact ⟨u, by rw [runSteps, hstep, andThen_next, hrun], hu⟩

/-! ### One cycle with a channel response -/

/-- A cycle with a response alone is the response and the internal sub-step. -/
theorem step_respOnly {s : State} {collision : Bool} {draw : BitVec 10}
    (h : s.currentInputs = respOnly collision draw) :
    step s = internal (respond collision draw (s.consumeInputs.setOut BusOut.zero)) := by
  rw [step, h]
  rfl

theorem collNext_toNat (c : BitVec 16) : (collNext c).toNat = min (c.toNat + 1) 0xFFFF := by
  have hlt := c.isLt
  unfold collNext
  split_ifs with h
  · rw [h]
    rfl
  · have hne : c.toNat ≠ 0xFFFF := fun heq => h (BitVec.eq_of_toNat_eq heq)
    rw [BitVec.toNat_add_of_lt (by simp; omega), Nat.min_eq_left (by omega)]
    rfl

/-- A collision within the cap sends the unit into Backoff (R106). -/
theorem respond_collision_of_le {s : State} (draw : BitVec 10) (hcs : s.cs = .transmitting)
    (hcap : s.act.maxRetry = 0 ∨ min (s.coll.toNat + 1) 0xFFFF ≤ s.act.maxRetry.toNat) :
    respond true draw s = { s with
      counters := { s.counters with coll := s.counters.coll + 1 }, coll := collNext s.coll
      cs := .backoff, bocnt := backoffTicks s.act draw (collNext s.coll) } := by
  rw [respond, if_neg (not_not.2 hcs), if_pos rfl]
  obtain ⟨hmax, hlt, -⟩ | ⟨-, heq⟩ := collided_cases draw s
  · rw [collNext_toNat] at hlt
    exact (hcap.elim hmax (Nat.not_le_of_lt hlt)).elim
  · exact heq

/-- A collision past the cap aborts the frame (R106, R107). -/
theorem respond_collision_past_cap {s : State} (draw : BitVec 10) (hcs : s.cs = .transmitting)
    (hmax : s.act.maxRetry ≠ 0) (hcap : s.act.maxRetry.toNat < min (s.coll.toNat + 1) 0xFFFF) :
    respond true draw s =
      abort { s with counters := { s.counters with coll := s.counters.coll + 1 }, coll := collNext s.coll } := by
  rw [respond, if_neg (not_not.2 hcs), if_pos rfl]
  obtain ⟨-, -, heq⟩ | ⟨hle, -⟩ := collided_cases draw s
  · exact heq
  · rw [collNext_toNat] at hle
    exact absurd ⟨hmax, hcap⟩ hle

/-- What a cycle of one collision below the cap leaves in NONE mode: the frame presented again, one collision more. -/
def retried (s : State) : State :=
  { s with
    inputs := s.inputs.tail, out := BusOut.zero, counters := { s.counters with coll := s.counters.coll + 1 }
    cs := .transmitting, coll := collNext s.coll, bocnt := 0 }

theorem step_collision_of_le {s : State} {draw : BitVec 10} (hin : s.currentInputs = respOnly true draw)
    (hcs : s.cs = .transmitting) (hmode : s.act.boMode = .immediate)
    (hcap : s.act.maxRetry = 0 ∨ min (s.coll.toNat + 1) 0xFFFF ≤ s.act.maxRetry.toNat) :
    step s = .next (retried s) := by
  have hticks := backoffTicks_of_immediate hmode draw (collNext s.coll)
  rw [step_respOnly hin, respond_collision_of_le (s := s.consumeInputs.setOut BusOut.zero) draw hcs hcap]
  refine (if_pos ⟨rfl, hticks⟩).trans ?_
  exact congrArg (fun b => Host.Outcome.next { retried s with bocnt := b }) hticks

/-- A run of n collisions that stays within the cap leaves the frame presented and counts n collisions, and writes
nothing else but the collision counter, BOCNT and the model's own fields. -/
theorem runSteps_collisions {draw : BitVec 10} {rest : List Inputs} (n : Nat) {s : State}
    (hcs : s.cs = .transmitting) (hmode : s.act.boMode = .immediate)
    (hcap : s.act.maxRetry = 0 ∨ min (s.coll.toNat + n) 0xFFFF ≤ s.act.maxRetry.toNat)
    (hin : s.inputs = List.replicate n (respOnly true draw) ++ rest) :
    ∃ t, runSteps n s = .next t ∧ t.coll.toNat = min (s.coll.toNat + n) 0xFFFF
      ∧ t = { s with
          inputs := rest, out := t.out, counters := { s.counters with coll := t.counters.coll }
          coll := t.coll, bocnt := t.bocnt } := by
  induction n generalizing s with
  | zero =>
    have := s.coll.isLt
    exact ⟨s, rfl, by omega, by rw [← show s.inputs = rest from hin]⟩
  | succ n ih =>
    have hcur : s.currentInputs = respOnly true draw := by
      rw [State.currentInputs, hin]
      rfl
    have hstep := step_collision_of_le hcur hcs hmode (hcap.imp_right fun h => by omega)
    have hcoll : (retried s).coll.toNat = min (s.coll.toNat + 1) 0xFFFF := collNext_toNat _
    obtain ⟨t, hrun, htcoll, ht⟩ := ih (s := retried s) rfl hmode
      (hcap.imp_right fun h => by rw [hcoll]; exact le_trans (by omega) h)
      (by rw [retried, hin]; rfl)
    refine ⟨t, by rw [runSteps, hstep, andThen_next, hrun], by omega, ht.trans ?_⟩
    rw [retried, hcs]

/-! ### The collision past the cap -/

theorem timerAfterTx_counters (s : State) : (timerAfterTx s).counters = s.counters := by
  obtain ⟨-, -, heq⟩ | ⟨-, heq⟩ := timerAfterTx_cases s
  · rw [heq, State.loadTimer_counters]
  · rw [heq]

/-- A cycle whose only input is a collision past the cap sets F_ABORT, counts the abort, and leaves the window and its
payloads alone (R107). -/
theorem step_collision_past_cap {s t : State} {draw : BitVec 10} (hin : s.currentInputs = respOnly true draw)
    (hcs : s.cs = .transmitting) (hmax : s.act.maxRetry ≠ 0)
    (hcap : s.act.maxRetry.toNat < min (s.coll.toNat + 1) 0xFFFF) (h : step s = .next t) :
    t.flags.abort = true ∧ t.counters.abort = s.counters.abort + 1
      ∧ t.buf = s.buf ∧ t.base = s.base ∧ t.next = s.next := by
  rw [step_respOnly hin] at h
  have hrest := (internal_outsideChannel h).trans (respond_outsideChannel _ _ _)
  have hflags : t.flags = _ := congrArg State.flags (internal_frame h)
  have hcounters : t.counters = _ := congrArg State.counters (internal_frame h)
  rw [respond_collision_past_cap (s := s.consumeInputs.setOut BusOut.zero) draw hcs hmax hcap] at hflags hcounters
  rw [hflags, hcounters, abort, timerAfterTx_flags, timerAfterTx_counters]
  have hbuf := eq_of_outsideChannel State.buf hrest
  have hbase := eq_of_outsideChannel State.base hrest
  have hnext := eq_of_outsideChannel State.next hrest
  exact ⟨rfl, rfl, hbuf, hbase, hnext⟩

/-- Settles O39: R collisions present the frame again each time, and the next one is past the cap. -/
theorem retryCapAbortsAtTheNextCollision : Obligations.RetryCapAbortsAtTheNextCollision := by
  intro s draw rest hinv hcs hcoll hmode hmax hlt hin
  have hzero : s.coll.toNat = 0 := by rw [hcoll]; rfl
  -- The k-th state of the run, with what is left of the inputs.
  have hrun (k : Nat) (hk : k ≤ s.act.maxRetry.toNat) := runSteps_collisions (draw := draw)
    (rest := List.replicate (s.act.maxRetry.toNat + 1 - k) (respOnly true draw) ++ rest) k hcs hmode
    (.inr (by omega)) (by rw [hin, ← List.append_assoc, ← List.replicate_add]; congr 2; omega)
  refine ⟨fun k hk => ?_, ?_⟩
  · obtain ⟨t, ht, htcoll, heq⟩ := hrun k hk
    exact ⟨t, ht, by rw [heq]; rfl, by omega, by rw [heq]⟩
  · obtain ⟨u, hu, hucoll, heq⟩ := hrun _ le_rfl
    have hcs' : u.cs = .transmitting := by rw [heq]; exact hcs
    have hact : u.act = s.act := by rw [heq]
    have hcur : u.currentInputs = respOnly true draw := by
      have hone : s.act.maxRetry.toNat + 1 - s.act.maxRetry.toNat = 0 + 1 := by omega
      rw [heq, State.currentInputs, hone]
      rfl
    obtain ⟨t, ht, -⟩ := runSteps_of_invariants (s.act.maxRetry.toNat + 1) hinv
    have hlast := ht
    rw [runSteps_add, hu, andThen_next] at hlast
    obtain ⟨t', hstep, ⟨⟩⟩ := andThen_eq_next.1 hlast
    obtain ⟨hflag, hcount, hbuf, hbase, hnext⟩ :=
      step_collision_past_cap hcur hcs' (by rw [hact]; exact hmax) (by rw [hact]; omega) hstep
    exact ⟨t, ht, hflag, hcount.trans (by rw [heq]), hbuf.trans (by rw [heq]), hbase.trans (by rw [heq]),
      hnext.trans (by rw [heq])⟩

end Sys2Proof.Proofs
end

section
/-! PROOFS. The fields of STATUS (R22), STATE (R24) and PARAM (R23) as the host reads them. -/

namespace Sys2Proof.Proofs

open Sys2Proof Sys2Proof.Machine Sys2Proof.Safety

/-! ### STATUS -/

/-- STATUS bit by bit: LAST in bits 3:0, VERDICT in bit 4, the flags in bits 8 to 11, 0 elsewhere (R22). -/
theorem statusWord_getLsbD (s : State) (i : Nat) : (statusWord s).getLsbD i =
    if i < 4 then s.last.code.getLsbD i
    else if i = 4 then s.verdict
    else if i = 8 then s.flags.invAck
    else if i = 9 then s.flags.abort
    else if i = 10 then s.flags.tout
    else if i = 11 then s.flags.spur
    else false := by
  simp only [statusWord, BitVec.getLsbD_append, BitVec.getLsbD_ofBool, BitVec.getLsbD_zero]
  rcases Nat.lt_or_ge i 12 with h | h
  · interval_cases i <;> simp
  · simp (disch := omega) only [if_neg]

theorem statusWord_last (s : State) : (statusWord s).extractLsb' 0 4 = s.last.code :=
  BitVec.extractLsb'_append_eq_right

/-- The bits of STATUS above a field, and those between two, read 0. -/
theorem statusWord_reserved (s : State) :
    (statusWord s).extractLsb' 5 3 = 0 ∧ (statusWord s).extractLsb' 12 20 = 0 := by
  simp only [statusWord, BitVec.extractLsb'_append_eq_of_le, BitVec.extractLsb'_append_eq_right,
    BitVec.extractLsb'_eq_self, Nat.reduceLeDiff, Nat.reduceSub]
  decide

/-- A write to STATUS clears the bits 8 to 11 that are written 1 (R22). -/
theorem clearFlags_getLsbD (s : State) (w : Word) (i : Nat) : (statusWord (clearFlags w s)).getLsbD i =
    ((statusWord s).getLsbD i && !(decide (8 ≤ i) && decide (i ≤ 11) && w.getLsbD i)) := by
  rw [statusWord_getLsbD, statusWord_getLsbD]
  simp only [clearFlags]
  split_ifs with hlast hverdict hinv habort htout hspur
  · simp [show ¬8 ≤ i by omega]
  · simp [hverdict]
  · simp [hinv]
  · simp [habort]
  · simp [htout]
  · simp [hspur]
  · rfl

/-- Settles O46: the fields bit by bit, and the clear bit by bit. -/
theorem statusReadsItsFieldsAndClearsTheSelectedFlags :
    Obligations.StatusReadsItsFieldsAndClearsTheSelectedFlags := by
  refine ⟨fun s => ⟨?_, statusWord_getLsbD s 4, (statusWord_reserved s).1, statusWord_getLsbD s 8,
    statusWord_getLsbD s 9, statusWord_getLsbD s 10, statusWord_getLsbD s 11, (statusWord_reserved s).2⟩,
    fun s w => ⟨fun i _ => clearFlags_getLsbD s w i, rfl⟩⟩
  rw [readReg, statusWord_last]
  cases s.last <;> rfl

/-! ### STATE -/

/-- The fields of STATE of one bit (R24). -/
theorem stateWord_bits (s : State) :
    (stateWord s).getLsbD 2 = await s ∧ (stateWord s).getLsbD 3 = s.tmrRun
      ∧ (stateWord s).getLsbD 6 = s.txh.valid ∧ (stateWord s).getLsbD 7 = s.cfgValid := by
  simp only [stateWord, BitVec.getLsbD_append]
  simp

/-- The fields of STATE of more bits, and its reserved bits (R24). -/
theorem stateWord_fields (s : State) :
    (stateWord s).extractLsb' 0 2 = occ s ∧ (stateWord s).extractLsb' 4 2 = s.cs.code
      ∧ (stateWord s).extractLsb' 8 24 = 0 := by
  refine ⟨BitVec.extractLsb'_append_eq_right, ?_, ?_⟩
  · simp only [stateWord, BitVec.extractLsb'_append_eq_of_le, BitVec.extractLsb'_append_eq_right, Nat.reduceLeDiff,
      Nat.reduceSub]
  · simp only [stateWord, BitVec.extractLsb'_append_eq_of_le, BitVec.extractLsb'_eq_self, Nat.reduceLeDiff,
      Nat.reduceSub]
    rfl

theorem await_eq_decide (s : State) : await s = decide (s.next ≠ s.base) := by
  rw [await, bne, decide_not]
  rfl

/-- Settles O48: OCC and CS have the codes the fields hold, and after reset every field is 0. -/
theorem stateRegisterShowsTheDerivedFields : Obligations.StateRegisterShowsTheDerivedFields := by
  refine ⟨fun p => ?_, fun s => ?_⟩
  · simp [readReg, stateWord, State.resetFor, TxHold.none, CsState.code, await, occ]
  · obtain ⟨hawait, htmr, htxh, hcfg⟩ := stateWord_bits s
    obtain ⟨hocc, hcs, hzero⟩ := stateWord_fields s
    refine ⟨?_, hawait.trans (await_eq_decide s), htmr, ?_, htxh, hcfg, hzero⟩
    · rw [readReg, hocc, occ, State.outstanding]
      split_ifs <;> rfl
    · rw [readReg, hcs]
      cases s.cs <;> rfl

/-! ### PARAM -/

/-- The fields of PARAM for every parameter (R23). -/
theorem paramWord_fields (p : Params) :
    (paramWord p).extractLsb' 0 8 = BitVec.ofNat 8 p.wmax ∧ (paramWord p).extractLsb' 8 5 = BitVec.ofNat 5 p.seqW
      ∧ (paramWord p).extractLsb' 13 3 = 0 ∧ (paramWord p).extractLsb' 16 8 = BitVec.ofNat 8 p.dw
      ∧ (paramWord p).extractLsb' 24 8 = BitVec.ofNat 8 Config.kmax := by
  simp only [paramWord, BitVec.extractLsb'_append_eq_of_le, BitVec.extractLsb'_append_eq_right,
    BitVec.extractLsb'_eq_self, Nat.reduceLeDiff, Nat.reduceSub, BitVec.ofNat_eq_ofNat, and_self]

/-- Settles O49: the fields have room for every legal parameter, and no step changes the parameters (O12). -/
theorem paramReportsTheInstance : Obligations.ParamReportsTheInstance := by
  refine ⟨fun s hlegal => ?_, by decide, fun p hp => ?_, fun s t h => ?_⟩
  · obtain ⟨-, hcap, -, -, hwmax, -, hseq, -⟩ := params_legal_iff.1 hlegal
    obtain ⟨h0, h8, h13, h16, h24⟩ := paramWord_fields s.params
    have hdw := dw_le_of_legal hlegal
    refine ⟨?_, ?_, h13, ?_, h24⟩
    · rw [readReg, h0, BitVec.toNat_ofNat, Nat.mod_eq_of_lt (by omega)]
    · rw [readReg, h8, BitVec.toNat_ofNat, Nat.mod_eq_of_lt (by omega)]
    · rw [readReg, h16, BitVec.toNat_ofNat, Nat.mod_eq_of_lt (by omega), Params.dw]
  · rw [readReg, BitVec.toNat_setWidth_of_le (by decide)]
    exact seqInit_toNat hp
  · exact congrArg paramWord (noStepChangesTheParameters s t h)

end Sys2Proof.Proofs
end

section
/-! PROOFS. Packed bit strings character by character (R60). -/

namespace Sys2Proof.Proofs

open Sys2Proof Sys2Proof.Machine

/-- Bit i of V is the character i places from the end of the string, and 0 where there is none. -/
theorem testBit_packValue (s : List Bool) (i : Nat) : (packValue s).testBit i = s.reverse[i]?.getD false := by
  induction s using List.reverseRecOn generalizing i with
  | nil => simp [packValue]
  | append_singleton s c ih =>
    have hsnoc : packValue (s ++ [c]) = Nat.bit c (packValue s) := by
      rw [packValue, List.foldl_append, Nat.bit_val]
      rfl
    rw [hsnoc, List.reverse_append]
    cases i with
    | zero => exact Nat.testBit_bit_zero c _
    | succ i => exact (Nat.testBit_bit_succ ..).trans (ih i)

/-- Settles O15: the bits of V are the characters in reverse order, and the packed form has room for all of them. -/
theorem packingPutsTheFirstCharacterHighest : Obligations.PackingPutsTheFirstCharacterHighest := by
  intro s hs
  have hbit (i : Nat) : (pack s).bits.getLsbD i = (decide (i < 1024) && s.reverse[i]?.getD false) := by
    rw [pack, BitVec.getLsbD_ofNat, testBit_packValue]
  refine ⟨?_, fun i hi => ?_, fun i hi => ?_⟩
  · exact Nat.mod_eq_of_lt (by omega)
  · have hpos : s.length - 1 - (s.length - 1 - i) = i := by omega
    rw [hbit, List.getElem?_reverse (by omega), hpos, decide_eq_true (by omega), List.getElem?_eq_getElem hi]
    rfl
  · rw [hbit, List.getElem?_eq_none (by simpa using hi)]
    exact Bool.and_false _

end Sys2Proof.Proofs
end

section
/-! PROOFS. What the bus sub-step answers to a refused access, a read and a storage write (R62, R64, R65). -/

namespace Sys2Proof.Proofs

open Sys2Proof Sys2Proof.Machine Sys2Proof.Safety

/-- A refused access only writes the bus outputs (R65). -/
theorem busSubstep_of_refused {i : Inputs} {s : State} {e : BusRefusal} (hv : i.busValid = true)
    (ht : busTarget s.params i.busWrite i.busAddr i.busSize = .error e) :
    busSubstep i s = .next (s.setOut ⟨0, true⟩) := by
  simp [busSubstep, hv, ht, State.setOut]

/-- An accepted read only writes the bus outputs, with the register's value (R62). -/
theorem busSubstep_of_read {i : Inputs} {s : State} {r : Reg} (h : accesses s.params i false r) :
    busSubstep i s = .next (s.setOut ⟨readReg s r, false⟩) := by
  obtain ⟨-, hv, hw, ht⟩ := h
  simp [busSubstep, hv, hw, ht, State.setOut]

/-- An accepted write to a register other than CMD stores (R64). -/
theorem busSubstep_of_write {i : Inputs} {s : State} {r : Reg} (h : accesses s.params i true r) (hr : r ≠ .cmd) :
    busSubstep i s = .next (writeReg (s.setOut BusOut.zero) r i.busWdata) := by
  obtain ⟨-, hv, hw, ht⟩ := h
  simp [busSubstep, hv, hw, ht, hr]

theorem access_eq_ro_iff (r : Reg) : r.access = .ro ↔
    r ∈ [Reg.param, .state, .base, .next, .txptr, .tmr, .txh, .coll, .bocnt,
        .cntTxok, .cntColl, .cntAbort, .cntInvAck, .cntTout,
        .actCtrl, .actWin, .actTimeout, .actMaxRetry, .actSlot, .actKeyLo, .actKeyHi, .resultLen]
      ∨ ∃ j, r = .result j := by
  cases r <;> simp [Reg.access]

theorem access_eq_rw_iff (r : Reg) : r.access = .rw ↔
    r ∈ [Reg.cfgCtrl, .cfgWin, .cfgTimeout, .cfgMaxRetry, .cfgSlot, .cfgKeyLo, .cfgKeyHi, .dataLen]
      ∨ ∃ j, r = .data j := by
  cases r <;> simp [Reg.access]

/-- An access is refused exactly for one of the four causes of R65. -/
theorem busTarget_eq_error_iff (p : Params) (w : Bool) (a : BitVec 12) (z : BitVec 3) :
    (∃ e, busTarget p w a z = .error e) ↔
      (z ≠ 4 ∨ a.toNat % 4 ≠ 0 ∨ regAt p a.toNat = none
        ∨ (w = true ∧ ∃ r, regAt p a.toNat = some r ∧ r.access = .ro)) := by
  have hok : (∃ e, busTarget p w a z = .error e) ↔ ∀ r, busTarget p w a z ≠ .ok r := by
    cases busTarget p w a z <;> simp
  simp only [hok, ne_eq, busTarget_eq_ok_iff]
  cases regAt p a.toNat with
  | none => simp
  | some q =>
    simp only [Option.some.injEq, reduceCtorEq, exists_eq_left', false_or]
    constructor
    · intro h
      have := h q
      tauto
    · rintro h r ⟨hz, ha, rfl, hn⟩
      tauto

/-- Settles O43: the causes are those that an accepted access excludes, and a refusal writes the bus outputs alone. -/
theorem refusedAccessOnlyRaisesBusErr : Obligations.RefusedAccessOnlyRaisesBusErr :=
  ⟨access_eq_ro_iff, access_eq_rw_iff, rfl, rfl, busTarget_eq_error_iff, fun _ _ _ hv ht => busSubstep_of_refused hv ht⟩

end Sys2Proof.Proofs
end

section
/-! PROOFS. What each register reads as, and what a storage write makes of it (R25 to R39, R64, R66). -/

namespace Sys2Proof.Proofs

open Sys2Proof Sys2Proof.Machine Sys2Proof.Safety

/-! ### The configuration registers -/

@[simp] theorem checkMode_bit_ofBit (b : Bool) : (CheckMode.ofBit b).bit = b := by cases b <;> rfl

@[simp] theorem backoffMode_bit_ofBit (b : Bool) : (BackoffMode.ofBit b).bit = b := by cases b <;> rfl

/-- CFG_CTRL and ACT_CTRL bit by bit (R31). -/
theorem ctrlWord_getLsbD (c : ConfigRegs) (i : Nat) : (ctrlWord c).getLsbD i =
    if i = 0 then c.mode.bit else if i = 1 then c.boMode.bit else false := by
  simp only [ctrlWord, BitVec.getLsbD_append, BitVec.getLsbD_ofBool, BitVec.getLsbD_zero]
  rcases i with _ | _ | i <;> simp

/-- The bits of CFG_CTRL and ACT_CTRL above the two modes read 0 (R31). -/
theorem ctrlWord_lt (c : ConfigRegs) : (ctrlWord c).toNat < 4 := by
  have hbits (b m : Bool) : (0#30 ++ BitVec.ofBool b ++ BitVec.ofBool m).toNat < 4 := by
    revert b m
    decide
  exact hbits _ _

/-- A 64-bit key is its two 32-bit halves (R36). -/
theorem key_halves_toNat (g : BitVec 64) :
    (g.extractLsb' 32 32).toNat * 2 ^ 32 + (g.extractLsb' 0 32).toNat = g.toNat := by
  have hlt := g.isLt
  simp only [BitVec.extractLsb'_toNat, Nat.shiftRight_eq_div_pow]
  omega

/-- The seven words of a configuration, whichever of the two it is (R37). -/
theorem readsConfig_words (c : ConfigRegs) :
    readsConfig c (ctrlWord c) (c.win.setWidth 32) c.timeout (c.maxRetry.setWidth 32) (c.slot.setWidth 32)
      (c.key.extractLsb' 0 32) (c.key.extractLsb' 32 32) := by
  refine ⟨?_, ?_, ctrlWord_lt c, BitVec.toNat_setWidth_of_le (by decide), rfl, BitVec.toNat_setWidth_of_le (by decide),
    BitVec.toNat_setWidth_of_le (by decide), key_halves_toNat c.key⟩
  · rw [ctrlWord_getLsbD]
    cases c.mode <;> rfl
  · rw [ctrlWord_getLsbD]
    cases c.boMode <;> rfl

/-! ### The operand words -/

/-- Bit i of host word j is bit 32j + i of the packed value (R38). -/
theorem hostWord_getLsbD (v : Bits) (j i : Nat) :
    (hostWord v j).getLsbD i = (decide (i < 32) && v.getLsbD (32 * j + i)) :=
  BitVec.getLsbD_extractLsb' ..

/-- A write of host word j replaces the bits 32j to 32j + 31 of the packed value and leaves the others. -/
theorem setHostWord_getLsbD (v : Bits) (j : Nat) (w : Word) {k : Nat} (hk : k < 1024) :
    (setHostWord v j w).getLsbD k =
      if 32 * j ≤ k ∧ k < 32 * j + 32 then w.getLsbD (k - 32 * j) else v.getLsbD k := by
  have hmask (n : Nat) : (0xFFFFFFFF : Bits).getLsbD n = decide (n < 32) := by
    have hones : (0xFFFFFFFF : Bits) = BitVec.ofNat 1024 (2 ^ 32 - 1) := rfl
    rw [hones, BitVec.getLsbD_ofNat, Nat.testBit_two_pow_sub_one]
    exact Bool.and_eq_right_iff_imp.2 fun h => decide_eq_true (by simp only [decide_eq_true_eq] at h; omega)
  simp only [setHostWord, BitVec.getLsbD_or, BitVec.getLsbD_and, BitVec.getLsbD_not, BitVec.getLsbD_shiftLeft, hmask,
    BitVec.getLsbD_setWidth, hk, decide_true, Bool.true_and]
  by_cases hlo : 32 * j ≤ k
  · by_cases hhi : k < 32 * j + 32
    · simp [hlo, hhi, show ¬k < 32 * j by omega, show k - 32 * j < 32 by omega, show k - 32 * j < 1024 by omega]
    · simp [hhi, show ¬k - 32 * j < 32 by omega, BitVec.getLsbD_of_ge w _ (show 32 ≤ k - 32 * j by omega)]
  · simp [hlo, show k < 32 * j by omega]

theorem hostWord_setHostWord_same (v : Bits) {j : Nat} (hj : j < 32) (w : Word) :
    hostWord (setHostWord v j w) j = w := by
  apply BitVec.eq_of_getLsbD_eq
  intro i hi
  rw [hostWord_getLsbD, setHostWord_getLsbD v j w (by omega), if_pos (by omega), Nat.add_sub_cancel_left]
  simp [hi]

theorem hostWord_setHostWord_ne (v : Bits) {j k : Nat} (hne : k ≠ j) (w : Word) :
    hostWord (setHostWord v j w) k = hostWord v k := by
  apply BitVec.eq_of_getLsbD_eq
  intro i hi
  rw [hostWord_getLsbD, hostWord_getLsbD]
  by_cases hk : 32 * k + i < 1024
  · rw [setHostWord_getLsbD v j w hk, if_neg (by omega)]
  · rw [BitVec.getLsbD_of_ge _ _ (by omega), BitVec.getLsbD_of_ge _ _ (by omega)]

/-! ### Storage writes -/

/-- A field of n bits keeps the low n bits of a written word, and the rest read 0 (R66). -/
theorem setWidth_setWidth_eq_and (w : Word) (n : Nat) :
    (w.setWidth n).setWidth 32 = w &&& (BitVec.allOnes n).setWidth 32 := by
  apply BitVec.eq_of_getLsbD_eq
  intro i hi
  simp [hi, Bool.and_comm]

/-- CFG_CTRL with its modes taken from a written word reads as the word's two low bits (R31, R66). -/
theorem ctrlWord_ofBits (c : ConfigRegs) (w : Word) :
    ctrlWord { c with mode := .ofBit (w.getLsbD 0), boMode := .ofBit (w.getLsbD 1) } = w &&& 0x3 := by
  apply BitVec.eq_of_getLsbD_eq
  intro i hi
  rw [ctrlWord_getLsbD, BitVec.getLsbD_and, checkMode_bit_ofBit, backoffMode_bit_ofBit]
  have hmask : (0x3 : Word).getLsbD i = decide (i < 2) := by
    revert i
    decide
  rw [hmask]
  rcases i with _ | _ | i <;> simp

/-- A written RW register reads as the word without its reserved bits (R64, R66). -/
theorem readReg_writeReg_same {s : State} {r : Reg} (hp : s.params.legal = true) (hr : Reg.exists s.params r = true)
    (hrw : r.access = .rw) (w : Word) : readReg (writeReg s r w) r = w &&& storedBits r := by
  have hfull : w &&& 0xFFFFFFFF = w := BitVec.and_allOnes
  cases r with
  | cfgCtrl => exact ctrlWord_ofBits s.cfg w
  | cfgWin => exact setWidth_setWidth_eq_and w 8
  | cfgTimeout => exact hfull.symm
  | cfgMaxRetry | cfgSlot | dataLen => exact setWidth_setWidth_eq_and w 16
  | cfgKeyLo => exact BitVec.extractLsb'_append_eq_right.trans hfull.symm
  | cfgKeyHi => exact BitVec.extractLsb'_append_eq_left.trans hfull.symm
  | data j =>
    have hj : j < 32 := Nat.lt_of_lt_of_le (of_decide_eq_true hr) (dw_le_of_legal hp)
    exact (hostWord_setHostWord_same s.data.bits hj w).trans hfull.symm
  | _ => cases hrw

/-- A write to a register leaves what every other one reads as, those that share a configuration field or DATA with it
among them. -/
theorem readReg_writeReg_ne (s : State) {r q : Reg} (hrw : r.access = .rw) (hq : q ≠ r) (w : Word) :
    readReg (writeReg s r w) q = readReg s q := by
  cases r with
  | status => cases hrw
  | cfgCtrl => cases q with
    | cfgCtrl => exact absurd rfl hq
    | _ => rfl
  | cfgWin => cases q with
    | cfgWin => exact absurd rfl hq
    | _ => rfl
  | cfgTimeout => cases q with
    | cfgTimeout => exact absurd rfl hq
    | _ => rfl
  | cfgMaxRetry => cases q with
    | cfgMaxRetry => exact absurd rfl hq
    | _ => rfl
  | cfgSlot => cases q with
    | cfgSlot => exact absurd rfl hq
    | _ => rfl
  | cfgKeyLo => cases q with
    | cfgKeyLo => exact absurd rfl hq
    | cfgKeyHi => exact BitVec.extractLsb'_append_eq_left
    | _ => rfl
  | cfgKeyHi => cases q with
    | cfgKeyHi => exact absurd rfl hq
    | cfgKeyLo => exact BitVec.extractLsb'_append_eq_right
    | _ => rfl
  | dataLen => cases q with
    | dataLen => exact absurd rfl hq
    | _ => rfl
  | data j => cases q with
    | data k => exact hostWord_setHostWord_ne s.data.bits (fun h => hq (congrArg Reg.data h)) w
    | _ => rfl
  | _ => rfl

/-- Settles O45: the written register, the other registers, and the frame of `writeReg` without the flags. -/
theorem storageWriteReplacesTheDefinedBits : Obligations.StorageWriteReplacesTheDefinedBits := by
  intro s r w hp hr hrw
  have hne : r ≠ .status := by
    rintro rfl
    cases hrw
  refine ⟨readReg_writeReg_same hp hr hrw w, fun q hq => readReg_writeReg_ne s hrw hq w, ?_⟩
  have hframe := writeReg_frame s r w
  rwa [writeReg_flags hne] at hframe

/-! ### Reads in a cycle -/

/-- TXH_LEN stands above TXH_SEQ in the register TXH (R27). -/
theorem readReg_txh_toNat (s : State) :
    (readReg s .txh).toNat = s.txh.frame.len.toNat * 2 ^ 16 + s.txh.seq.toNat := by
  rw [readReg, BitVec.toNat_append, ← Nat.shiftLeft_add_eq_or_of_lt s.txh.seq.isLt, Nat.shiftLeft_eq]

/-- The list of inputs to come is in no register. -/
theorem readReg_consumeInputs (s : State) (r : Reg) : readReg s.consumeInputs r = readReg s r := by
  cases r <;> rfl

/-- Where no frame waits to start and no backoff is over, the internal sub-step does nothing (R151). -/
theorem internal_of_settled {s : State} (hbackoff : ¬(s.cs = .backoff ∧ s.bocnt = 0))
    (hstarted : ¬(s.cs = .idle ∧ s.cfgValid = true ∧ s.txptr.toNat < s.next.toNat)) : internal s = .next s :=
  (if_neg hbackoff).trans (if_neg hstarted)

/-- A step that reads a register shows its value as of the start of the cycle (R62). -/
theorem step_read_out {s t : State} {r : Reg} (h : step s = .next t) (hacc : accesses s.params s.currentInputs false r) :
    t.out = ⟨readReg s r, false⟩ := by
  obtain ⟨s1, hbus, hrest, -⟩ := step_eq_busSubstep_outsideChannel h hacc.1
  cases (busSubstep_of_read (s := s.consumeInputs) hacc).symm.trans hbus
  rw [eq_of_outsideChannel State.out hrest, readReg_consumeInputs]
  rfl

/-- A cycle with a read and neither a response nor a tick changes no element (R62, R151). -/
theorem step_read_only {s : State} {r : Reg} (hinv : Invariants s) (hacc : accesses s.params s.currentInputs false r)
    (hresp : s.currentInputs.respValid = false) (htick : s.currentInputs.tick = false) :
    step s = .next { s with inputs := s.inputs.tail, out := ⟨readReg s r, false⟩ } := by
  obtain ⟨-, -, -, hbackoff⟩ := hinv.csma
  refine runCycle_eq_next.2 (.inr ⟨hacc.1, _, busSubstep_of_read hacc, ?_⟩)
  rw [respSubstep, if_neg (by simp [hresp]), tickSubstep, if_neg (by simp [htick]), readReg_consumeInputs]
  exact internal_of_settled hbackoff hinv.started

/-- Settles O44: the registers by their definition, and the read by the frame of the later sub-steps. -/
theorem readReturnsTheStartOfCycleValue : Obligations.ReadReturnsTheStartOfCycleValue := by
  have hwide {n : Nat} (v : BitVec n) (hn : n ≤ 32) : (v.setWidth 32).toNat = v.toNat := BitVec.toNat_setWidth_of_le hn
  refine ⟨fun s => ⟨rfl, hwide s.base (by decide), hwide s.next (by decide), hwide s.txptr (by decide), rfl,
      readReg_txh_toNat s, hwide s.coll (by decide), rfl, rfl, rfl, rfl, rfl, rfl⟩,
    fun s => readsConfig_words s.cfg, fun s => readsConfig_words s.act,
    fun s => ⟨hwide s.data.len (by decide), hwide s.result.len (by decide), fun j i hi => ?_⟩,
    fun s i rest r hinv hin hacc => ?_⟩
  · rw [readReg, readReg, hostWord_getLsbD, hostWord_getLsbD, decide_eq_true hi]
    exact ⟨rfl, rfl⟩
  · have hcur : s.currentInputs = i := by rw [State.currentInputs, hin]
    have htail : s.inputs.tail = rest := by rw [hin]; rfl
    subst hcur htail
    obtain ⟨t, hstep, -⟩ := step_of_invariants hinv
    refine ⟨t, hstep, step_read_out hstep hacc, fun hresp htick => ?_⟩
    cases hstep.symm.trans (step_read_only hinv hacc hresp htick)
    rfl

end Sys2Proof.Proofs
end

section
/-! PROOFS. The flags at the end of a cycle that writes STATUS: what the later sub-steps set survives the clear (R74, R161). -/

namespace Sys2Proof.Proofs

open Sys2Proof Sys2Proof.Machine Sys2Proof.Safety

/-! ### Raised flags pass through the later sub-steps -/

/-- The state with the flags of f raised on top of its own. -/
def raiseFlags (f : StickyFlags) (s : State) : State :=
  { s with flags :=
      { invAck := s.flags.invAck || f.invAck
        abort := s.flags.abort || f.abort
        tout := s.flags.tout || f.tout
        spur := s.flags.spur || f.spur } }

theorem flagsLe_raiseFlags (f : StickyFlags) (s : State) : FlagsLe s.flags (raiseFlags f s).flags :=
  ⟨Bool.left_le_or _ _, Bool.left_le_or _ _, Bool.left_le_or _ _, Bool.left_le_or _ _⟩

variable {f : StickyFlags} {s t : State}

theorem ite_eq_raiseFlags {p : Prop} [Decidable p] {s' t' : State} (hs : s' = raiseFlags f s)
    (ht : t' = raiseFlags f t) : (if p then s' else t') = raiseFlags f (if p then s else t) := by
  rw [hs, ht, apply_ite (raiseFlags f)]

theorem timerAfterTx_raised (h : t = raiseFlags f s) : timerAfterTx t = raiseFlags f (timerAfterTx s) :=
  h ▸ ite_eq_raiseFlags rfl rfl

theorem onTimeout_raised (h : t = raiseFlags f s) : onTimeout t = raiseFlags f (onTimeout s) :=
  h ▸ ite_eq_raiseFlags rfl rfl

theorem respond_raised (collision : Bool) (draw : BitVec 10) (h : t = raiseFlags f s) :
    respond collision draw t = raiseFlags f (respond collision draw s) := by
  subst h
  have hcollided : collided draw (raiseFlags f s) = raiseFlags f (collided draw s) :=
    ite_eq_raiseFlags (timerAfterTx_raised rfl) rfl
  exact ite_eq_raiseFlags rfl (ite_eq_raiseFlags hcollided (timerAfterTx_raised rfl))

theorem timerCountdown_raised (h : t = raiseFlags f s) : timerCountdown t = raiseFlags f (timerCountdown s) :=
  h ▸ ite_eq_raiseFlags (ite_eq_raiseFlags (onTimeout_raised rfl) rfl) rfl

theorem backoffCountdown_raised (h : t = raiseFlags f s) : backoffCountdown t = raiseFlags f (backoffCountdown s) :=
  h ▸ ite_eq_raiseFlags rfl rfl

/-- The response and the tick act alike on a state with more flags set, and pass those flags on. -/
theorem respSubstep_raised (i : Inputs) (h : t = raiseFlags f s) : respSubstep i t = raiseFlags f (respSubstep i s) :=
  ite_eq_raiseFlags (respond_raised _ _ h) h

theorem tickSubstep_raised (i : Inputs) (h : t = raiseFlags f s) : tickSubstep i t = raiseFlags f (tickSubstep i s) :=
  ite_eq_raiseFlags (backoffCountdown_raised (timerCountdown_raised h)) h

/-! ### The event of each flag -/

theorem respSubstep_sets_spur {i : Inputs} (hv : i.respValid = true) (hcs : s.cs ≠ .transmitting) :
    (respSubstep i s).flags.spur = true := by
  rw [respSubstep, if_pos hv, respond, if_pos hcs, spurious]

theorem respSubstep_sets_abort {i : Inputs} (hv : i.respValid = true) (hc : i.respCollision = true)
    (hcs : s.cs = .transmitting) (hmax : s.act.maxRetry ≠ 0)
    (hcap : s.act.maxRetry.toNat < min (s.coll.toNat + 1) 0xFFFF) : (respSubstep i s).flags.abort = true := by
  rw [respSubstep, if_pos hv, hc, respond_collision_past_cap i.boDraw hcs hmax hcap, abort, timerAfterTx_flags]

/-- Where no attempt is answered, the response sub-step writes the flags at most (R104). -/
theorem respSubstep_of_unanswered {i : Inputs} (h : i.respValid = false ∨ s.cs ≠ .transmitting) :
    respSubstep i s = { s with flags := (respSubstep i s).flags } := by
  obtain ⟨-, heq⟩ | ⟨hv, heq⟩ := respSubstep_cases i s <;> rw [heq]
  have hcs : s.cs ≠ .transmitting := h.resolve_left (by simp [hv])
  rw [respond, if_pos hcs, spurious]

theorem backoffCountdown_flags (s : State) : (backoffCountdown s).flags = s.flags := by
  obtain ⟨-, -, heq⟩ | ⟨-, heq⟩ := backoffCountdown_cases s <;> rw [heq]

/-- The tick at TMR = 1 of a running timer with outstanding frames times out (R116, R117). -/
theorem tickSubstep_sets_tout {i : Inputs} (htick : i.tick = true) (hrun : s.tmrRun = true) (htmr : s.tmr = 1)
    (hout : s.next ≠ s.base) : (tickSubstep i s).flags.tout = true := by
  rw [tickSubstep, if_pos htick, backoffCountdown_flags]
  obtain ⟨hrun', -⟩ | ⟨-, hne, -⟩ | ⟨-, -, heq⟩ := timerCountdown_cases s
  · simp [hrun] at hrun'
  · exact absurd (by rw [htmr]; rfl) hne
  · rw [heq, onTimeout, if_neg hout]

/-! ### The flags at the end of a cycle -/

/-- After the bus access only the response and the tick write the flags. -/
theorem step_flags {s1 : State} (h : step s = .next t) (hrst : s.currentInputs.rst = false)
    (hbus : busSubstep s.currentInputs s.consumeInputs = .next s1) :
    t.flags = (tickSubstep s.currentInputs (respSubstep s.currentInputs s1)).flags := by
  obtain ⟨hrst', -⟩ | ⟨-, s2, hbus', hint⟩ := runCycle_eq_next.1 h
  · simp [hrst] at hrst'
  · cases hbus.symm.trans hbus'
    rw [internal_frame hint]

/-- The state between a write to STATUS and the later sub-steps of its cycle (R22). -/
def afterStatusWrite (s : State) : State := clearFlags s.currentInputs.busWdata (s.consumeInputs.setOut BusOut.zero)

theorem step_flags_of_statusWrite (h : step s = .next t) (hacc : accesses s.params s.currentInputs true .status) :
    t.flags = (tickSubstep s.currentInputs (respSubstep s.currentInputs (afterStatusWrite s))).flags :=
  step_flags h hacc.1 (busSubstep_of_write (s := s.consumeInputs) hacc (by decide))

/-- The flags that a cycle sets from clear flags without its bus access are set at the end of the cycle that writes
STATUS: its later sub-steps take the same choices, on top of what the clear left. -/
theorem flagsLe_of_statusWrite {i : Inputs} {rest : List Inputs} {u : State} (h : step s = .next t)
    (hin : s.inputs = i :: rest) (hacc : accesses s.params s.currentInputs true .status)
    (hu : step { s with flags := StickyFlags.clear, inputs := { i with busValid := false } :: rest } = .next u) :
    FlagsLe u.flags t.flags := by
  have hcur : s.currentInputs = i := by rw [State.currentInputs, hin]
  have hbare := step_flags hu (hcur ▸ hacc.1) rfl
  have hraised : afterStatusWrite s = raiseFlags (afterStatusWrite s).flags
      { s with flags := StickyFlags.clear, inputs := rest, out := BusOut.zero } := by
    rw [afterStatusWrite, State.consumeInputs, hin]
    simp [raiseFlags, clearFlags, State.setOut, StickyFlags.clear]
  have hsteps := tickSubstep_raised i (respSubstep_raised i hraised)
  rw [step_flags_of_statusWrite h hacc, hcur, hsteps, hbare]
  exact flagsLe_raiseFlags _ _

/-- Settles O47: each event sets its flag after the clear, and nothing lowers it in the same cycle. -/
theorem flagSetInTheCycleSurvivesTheClear : Obligations.FlagSetInTheCycleSurvivesTheClear := by
  intro s i rest hinv hin hacc
  have hcur : s.currentInputs = i := by rw [State.currentInputs, hin]
  obtain ⟨t, hstep, -⟩ := step_of_invariants hinv
  have hflags := step_flags_of_statusWrite hstep (hcur.symm ▸ hacc)
  rw [hcur] at hflags
  obtain ⟨-, habort, -, hspur⟩ := hflags ▸ tickSubstep_flagsLe i (respSubstep i (afterStatusWrite s))
  refine ⟨t, hstep, fun hv hcs => ?_, fun hv hc hcs hmax hcap => ?_, fun hno htick hrun htmr => ?_, fun u hu => ?_⟩
  · exact hspur (respSubstep_sets_spur hv hcs)
  · exact habort (respSubstep_sets_abort hv hc hcs hmax hcap)
  · rw [hflags, respSubstep_of_unanswered (s := afterStatusWrite s) hno]
    exact tickSubstep_sets_tout htick hrun htmr (hinv.timer.2 hrun).1
  · obtain ⟨hinvack, habort, htout, hspur⟩ := flagsLe_of_statusWrite hstep hin (hcur.symm ▸ hacc) hu
    exact ⟨hinvack, habort, htout, hspur⟩

end Sys2Proof.Proofs
end

section
/-! PROOFS. The fields of a command word (R77), what decoder and encoder make of them (R78, R81), and the byte lanes (R59). -/

namespace Sys2Proof.Proofs

open Sys2Proof

/-! ### The fields of a word -/

/-- A word is its fields ARG, RSV and OP, highest first (R77). -/
theorem fields_append (w : Word) : argOf w ++ rsvOf w ++ opOf w = w := by
  apply BitVec.eq_of_getLsbD_eq
  intro i hi
  simp only [argOf, rsvOf, opOf, BitVec.getLsbD_append, BitVec.getLsbD_extractLsb']
  split_ifs with hop hrsv
  · simp [hop]
  · rw [decide_eq_true hrsv, Bool.true_and, Nat.add_sub_cancel' (by omega)]
  · rw [decide_eq_true (by omega), Bool.true_and]
    congr 1
    omega

theorem opOf_append (a : BitVec 16) (r : BitVec 12) (o : BitVec 4) : opOf (a ++ r ++ o) = o :=
  BitVec.extractLsb'_append_eq_right

theorem rsvOf_append (a : BitVec 16) (r : BitVec 12) (o : BitVec 4) : rsvOf (a ++ r ++ o) = r := by
  simp only [rsvOf, BitVec.extractLsb'_append_eq_of_le, BitVec.extractLsb'_append_eq_right, Nat.reduceLeDiff,
    Nat.reduceSub]

theorem argOf_append (a : BitVec 16) (r : BitVec 12) (o : BitVec 4) : argOf (a ++ r ++ o) = a := by
  simp only [argOf, BitVec.extractLsb'_append_eq_of_le, BitVec.extractLsb'_eq_self, Nat.reduceLeDiff, Nat.reduceSub]

/-- R81's condition, which `legalWord` takes by division, on the fields as the decoder extracts them. -/
theorem legalWord_iff_fields (w : Word) :
    legalWord w = true ↔ (opOf w).toNat < 8 ∧ rsvOf w = 0 ∧ (opOf w = 4 ∨ argOf w = 0) := by
  have hlt := w.isLt
  simp only [legalWord, opOf, rsvOf, argOf, ← BitVec.toNat_inj, BitVec.extractLsb'_toNat, Nat.shiftRight_eq_div_pow,
    Bool.and_eq_true, Bool.or_eq_true, decide_eq_true_eq, beq_iff_eq, BitVec.ofNat_eq_ofNat, BitVec.toNat_ofNat]
  omega

/-! ### Decoding -/

theorem decodeWord_of_illegal {w : Word} (h : legalWord w = false) : decodeWord w = .illegal w := by
  have hfields := mt (legalWord_iff_fields w).2 (by simp [h])
  rw [← Nat.not_le] at hfields
  exact if_pos (by tauto)

theorem decodeWord_of_legal {w : Word} (h : legalWord w = true) :
    decodeWord w = commandOf (opOf w) (argOf w) w := by
  have hfields := (legalWord_iff_fields w).1 h
  rw [← Nat.not_le] at hfields
  exact if_neg (by tauto)

/-- Decoding inverts encoding on words: an illegal term keeps its word, and every other row has its fields. -/
theorem decodeWord_encode {i : Instr} (h : i.wf = true) : decodeWord (encode i) = i := by
  cases i with
  | illegal w => exact decodeWord_of_illegal (w := w) (by simpa [Instr.wf] using h)
  | ack n =>
    have hop : opOf (encode (.ack n)) = 4 := opOf_append n 0 4
    have harg : argOf (encode (.ack n)) = n := argOf_append n 0 4
    have hlegal : legalWord (encode (.ack n)) = true :=
      (legalWord_iff_fields _).2 ⟨by rw [hop]; decide, rsvOf_append n 0 4, .inl hop⟩
    rw [decodeWord_of_legal hlegal, hop, harg]
    rfl
  | _ => decide

/-! ### Encoding -/

theorem opcode_cases : ∀ op : BitVec 4, op.toNat < 8 →
    op = 0 ∨ op = 1 ∨ op = 2 ∨ op = 3 ∨ op = 4 ∨ op = 5 ∨ op = 6 ∨ op = 7 := by
  decide

/-- The word of the command an opcode below 8 selects has that opcode, RSV 0 and the argument, where it has one. -/
theorem encode_commandOf {op : BitVec 4} {arg : BitVec 16} (w : Word) (hop : op.toNat < 8) (harg : op = 4 ∨ arg = 0) :
    encode (commandOf op arg w) = arg ++ 0#12 ++ op := by
  obtain rfl | rfl | rfl | rfl | rfl | rfl | rfl | rfl := opcode_cases op hop
  case inr.inr.inr.inr.inl => rfl
  all_goals
    obtain rfl : arg = 0 := harg.resolve_left (by decide)
    rfl

/-- Encoding inverts decoding: the fields of a legal word say all of it, and the illegal row keeps the rest. -/
theorem encode_decodeWord (w : Word) : encode (decodeWord w) = w := by
  cases h : legalWord w with
  | false => rw [decodeWord_of_illegal h, encode]
  | true =>
    obtain ⟨hop, hrsv, harg⟩ := (legalWord_iff_fields w).1 h
    rw [decodeWord_of_legal h, encode_commandOf w hop harg]
    have hw := fields_append w
    rwa [hrsv] at hw

/-- What an opcode below 8 selects is a command. -/
theorem commandOf_ne_illegal {op : BitVec 4} (hop : op.toNat < 8) (arg : BitVec 16) (w v : Word) :
    commandOf op arg w ≠ .illegal v := by
  obtain rfl | rfl | rfl | rfl | rfl | rfl | rfl | rfl := opcode_cases op hop <;> exact nofun

theorem wf_of_ne_illegal {i : Instr} (h : ∀ w, i ≠ .illegal w) : i.wf = true := by
  cases i with
  | illegal w => exact absurd rfl (h w)
  | _ => rfl

/-- A legal word is the word of a command, which the illegal row is not. -/
theorem decodeWord_ne_illegal {w : Word} (h : legalWord w = true) (v : Word) : decodeWord w ≠ .illegal v := by
  rw [decodeWord_of_legal h]
  exact commandOf_ne_illegal ((legalWord_iff_fields w).1 h).1 _ _ _

/-- The decoder gives well-formed terms alone. -/
theorem decodeWord_wf (w : Word) : (decodeWord w).wf = true := by
  cases h : legalWord w with
  | false => rw [decodeWord_of_illegal h, Instr.wf, h]; rfl
  | true => exact wf_of_ne_illegal (decodeWord_ne_illegal h)

/-- ACK's word as `cmd` writes it (R86). -/
theorem encode_ack (n : BitVec 16) : encode (.ack n) = (n.setWidth 32 <<< 16) ||| 0x00000004 := by
  have hshift : (n.setWidth 32 <<< 16).toNat = n.toNat <<< 16 := by
    rw [BitVec.toNat_shiftLeft, BitVec.toNat_setWidth_of_le (by decide), Nat.mod_eq_of_lt]
    rw [Nat.shiftLeft_eq]
    omega
  apply BitVec.eq_of_toNat_eq
  rw [Laws.encode_ack_toNat, BitVec.toNat_or, hshift]
  exact (congrArg (· + 4) (Nat.shiftLeft_eq n.toNat 16).symm).trans (Nat.shiftLeft_add_eq_or_of_lt (by decide) _)

/-- Settles O1: the words of the fixed rows by evaluation, ACK's for every number by its fields. -/
theorem mnemonicsEncodeAsTheSpecSays : Obligations.MnemonicsEncodeAsTheSpecSays :=
  ⟨by decide, by decide, by decide, by decide, by decide, by decide, by decide, encode_ack, by decide⟩

/-! ### Byte lanes -/

theorem wordOfLanes_lanes (w : Word) :
    wordOfLanes (w.extractLsb' 0 8) (w.extractLsb' 8 8) (w.extractLsb' 16 8) (w.extractLsb' 24 8) = w := by
  apply BitVec.eq_of_getLsbD_eq
  intro i hi
  simp only [wordOfLanes, BitVec.getLsbD_append, BitVec.getLsbD_extractLsb']
  split_ifs with h0 h1 h2
  · simp [h0]
  · rw [decide_eq_true h1, Bool.true_and, Nat.add_sub_cancel' (by omega)]
  · rw [decide_eq_true h2, Bool.true_and]
    congr 1
    omega
  · rw [decide_eq_true (by omega), Bool.true_and]
    congr 1
    omega

theorem lanesOfWord_wordOfLanes (b0 b1 b2 b3 : Byte) : lanesOfWord (wordOfLanes b0 b1 b2 b3) = [b0, b1, b2, b3] := by
  simp only [lanesOfWord, wordOfLanes, BitVec.extractLsb'_append_eq_of_le, BitVec.extractLsb'_append_eq_right,
    BitVec.extractLsb'_eq_self, Nat.reduceLeDiff, Nat.reduceSub]

theorem decode_lanesOfWord (w : Word) : decode (lanesOfWord w) = .ok (decodeWord w) := by
  rw [lanesOfWord, decode, wordOfLanes_lanes]

theorem decode_of_length_ne {bs : List Byte} (h : bs.length ≠ 4) : decode bs = .error (.notOneWord bs.length) := by
  unfold decode
  split
  · exact absurd rfl h
  · rfl

/-- Settles O2: the lanes give the word back, and decoding inverts encoding on words. -/
theorem decodeInvertsEncode : Obligations.DecodeInvertsEncode := by
  intro i hwf
  rw [encodeBytes, decode_lanesOfWord, decodeWord_encode hwf]

/-- Settles O3: encoding inverts decoding on words, and four bytes are the lanes of one word. -/
theorem encodeInvertsDecode : Obligations.EncodeInvertsDecode := by
  refine ⟨fun w => ⟨encode_decodeWord w, decodeWord_wf w⟩, fun bs => decode_of_length_ne, fun bs hlen => ?_⟩
  obtain ⟨b0, b1, b2, b3, rfl⟩ := List.length_eq_four.1 hlen
  exact ⟨_, rfl, by rw [encodeBytes, encode_decodeWord, lanesOfWord_wordOfLanes]⟩

/-! ### The opcode map -/

/-- A row whose mask keeps every bit selects its pattern alone (R78). -/
theorem selects_of_full_mask (name : String) (p w : Word) : OpRow.selects ⟨name, p, 0xFFFFFFFF⟩ w = (w == p) := by
  have hall : w &&& 0xFFFFFFFF = w := BitVec.and_allOnes
  rw [OpRow.selects, hall]

/-- ACK's row looks at OP and RSV and leaves ARG free (R78). -/
theorem selects_of_low_mask (name : String) (p w : Word) :
    OpRow.selects ⟨name, p, 0x0000FFFF⟩ w = (w.toNat % 65536 == p.toNat) := by
  rw [OpRow.selects, Bool.eq_iff_iff, beq_iff_eq, beq_iff_eq, ← BitVec.toNat_inj, BitVec.toNat_and]
  exact iff_of_eq (congrArg (· = p.toNat) (Nat.and_two_pow_sub_one_eq_mod w.toNat 16))

/-- A word that a row of the opcode map selects is legal. -/
theorem legalWord_of_selects {w : Word} : ∀ r ∈ opcodeMap, r.selects w = true → legalWord w = true := by
  have hexact {name : String} {p : Word} (hp : legalWord p = true)
      (hsel : OpRow.selects ⟨name, p, 0xFFFFFFFF⟩ w = true) : legalWord w = true := by
    rw [selects_of_full_mask, beq_iff_eq] at hsel
    rwa [hsel]
  have hack (hsel : OpRow.selects ⟨"ACK", 0x00000004, 0x0000FFFF⟩ w = true) : legalWord w = true := by
    rw [selects_of_low_mask, beq_iff_eq] at hsel
    change w.toNat % 65536 = 4 at hsel
    simp only [legalWord, Bool.and_eq_true, Bool.or_eq_true, decide_eq_true_eq, beq_iff_eq]
    omega
  simp only [opcodeMap, List.forall_mem_cons, List.not_mem_nil, false_imp_iff, implies_true, and_true]
  exact ⟨hexact (by decide), hexact (by decide), hexact (by decide), hexact (by decide), hack, hexact (by decide),
    hexact (by decide), hexact (by decide)⟩

/-- ACK's row is the only one that selects ACK's words: the others ask for another OP. -/
theorem rows_of_ack (n : BitVec 16) :
    (opcodeMap.filter fun r => r.selects (encode (.ack n))).map OpRow.mnemonic = ["ACK"] := by
  have hother (p : Word) (hp : p.toNat % 65536 ≠ 4) : (encode (.ack n) == p) = false := by
    rw [beq_eq_false_iff_ne]
    rintro rfl
    exact hp (by rw [Laws.encode_ack_toNat]; omega)
  have hown : ((encode (.ack n)).toNat % 65536 == (4 : Word).toNat) = true := by
    rw [Laws.encode_ack_toNat, beq_iff_eq]
    change (n.toNat * 65536 + 4) % 65536 = 4
    omega
  simp (disch := decide) only [opcodeMap, List.filter_cons, List.filter_nil, selects_of_full_mask,
    selects_of_low_mask, hother, hown, Bool.false_eq_true, if_false, if_true]
  rfl

/-- The rows that select a command's word: its own and no other. -/
theorem rows_of_encode {i : Instr} (h : ∀ w, i ≠ .illegal w) :
    (opcodeMap.filter fun r => r.selects (encode i)).map OpRow.mnemonic = [i.mnemonic] := by
  cases i with
  | illegal w => exact absurd rfl (h w)
  | ack n => exact rows_of_ack n
  | _ => decide

/-- Settles O4: a legal word is a command's, which its own row selects, and a selected word is legal. -/
theorem legalWordIsOfExactlyOneRow : Obligations.LegalWordIsOfExactlyOneRow := by
  intro w
  have hrow (h : legalWord w = true) :
      (opcodeMap.filter fun r => r.selects w).map OpRow.mnemonic = [(decodeWord w).mnemonic] := by
    simpa only [encode_decodeWord] using rows_of_encode (decodeWord_ne_illegal h)
  refine ⟨⟨fun h => ?_, fun h => ?_⟩, hrow, decodeWord_of_illegal⟩
  · simpa using congrArg List.length (hrow h)
  · obtain ⟨r, hr⟩ := List.length_eq_one_iff.1 h
    have hmem : r ∈ opcodeMap.filter fun r => r.selects w := by simp [hr]
    obtain ⟨hmap, hsel⟩ := List.mem_filter.1 hmem
    exact legalWord_of_selects r hmap hsel

end Sys2Proof.Proofs
end

section
/-! PROOFS. What the lines of the pseudo-instructions do (R85): each is a run of register writes, or of the command and the ticks it names. -/

namespace Sys2Proof.Proofs

open Sys2Proof Sys2Proof.Machine Sys2Proof.Safety

/-! ### Cycles of one register write -/

/-- With legal parameters every register stands at a word-aligned offset that fits the bus address (R20). -/
theorem offset_on_bus {p : Params} (hp : p.legal = true) {r : Reg} (hr : Reg.exists p r = true) :
    r.offset < 4096 ∧ r.offset % 4 = 0 := by
  have hfixed : ∀ q ∈ fixedRegs, q.offset < 4096 ∧ q.offset % 4 = 0 := by decide
  have hdw := dw_le_of_legal hp
  obtain hmem | ⟨j, rfl⟩ | ⟨j, rfl⟩ := mem_fixedRegs_or_array r
  · exact hfixed r hmem
  all_goals
    have hj : j < p.dw := by simpa [Reg.exists] using hr
    simp only [Reg.offset]
    omega

/-- The register is one whose write stores (R64) or clears flags (R22). -/
def Stores (p : Params) (r : Reg) : Prop := Reg.exists p r = true ∧ r ≠ .cmd ∧ r.access ≠ .ro

/-- The cycle of the line `wr r, w` reaches r. -/
theorem accesses_wr {p : Params} (hp : p.legal = true) {r : Reg} (hr : Stores p r) (w : Word) :
    accesses p (Line.inputs (Line.wr r w)) true r := by
  obtain ⟨hex, -, hro⟩ := hr
  obtain ⟨hlt, halign⟩ := offset_on_bus hp hex
  have haddr : (BitVec.ofNat 12 r.offset).toNat = r.offset := by rw [BitVec.toNat_ofNat, Nat.mod_eq_of_lt hlt]
  refine ⟨rfl, rfl, rfl, busTarget_eq_ok_iff.2 ⟨rfl, ?_, ?_, fun h => hro h.2⟩⟩
  · exact (congrArg (· % 4) haddr).trans halign
  · exact (congrArg (regAt p) haddr).trans ((regAt_eq_some_iff hp halign).2 ⟨hex, rfl⟩)

/-- What a cycle of one register write leaves. -/
def store (s : State) (e : Reg × Word) : State := writeReg (s.consumeInputs.setOut BusOut.zero) e.1 e.2

/-- Under the invariants a cycle of one register write is that write, and nothing else happens in it (R64, R151). -/
theorem step_store {s : State} {e : Reg × Word} {rest : List Inputs} (hinv : Invariants s) (he : Stores s.params e.1)
    (hin : s.inputs = Line.inputs (Line.wr e.1 e.2) :: rest) : step s = .next (store s e) := by
  obtain ⟨-, -, -, hbackoff⟩ := hinv.csma
  have hcur : s.currentInputs = Line.inputs (Line.wr e.1 e.2) := by rw [State.currentInputs, hin]
  have hacc := accesses_wr hinv.legal he e.2
  rw [step, hcur]
  refine runCycle_eq_next.2 (.inr ⟨rfl, _, busSubstep_of_write hacc he.2.1, ?_⟩)
  refine internal_of_settled ?_ ?_ <;> rw [respSubstep, if_neg nofun, tickSubstep, if_neg nofun, writeReg_frame]
  · exact hbackoff
  · exact hinv.started

/-- The lines of a list of register writes. -/
def writeLines (ws : List (Reg × Word)) : List Line := ws.map fun e => Line.wr e.1 e.2

/-- A run of register writes makes them one after the other: each leaves the invariants, so nothing else happens in
its cycle. -/
theorem runSteps_stores {rest : List Inputs} (ws : List (Reg × Word)) {s : State} (hinv : Invariants s)
    (hws : ∀ e ∈ ws, Stores s.params e.1) (hin : s.inputs = (writeLines ws).map Line.inputs ++ rest) :
    runSteps ws.length s = .next (ws.foldl store s) := by
  induction ws generalizing s with
  | nil => rfl
  | cons e ws ih =>
    obtain ⟨he, hws⟩ := List.forall_mem_cons.1 hws
    have hstep := step_store hinv he hin
    have hparams : (store s e).params = s.params := noStepChangesTheParameters s _ hstep
    have htail : (store s e).inputs = (writeLines ws).map Line.inputs ++ rest := by
      rw [store, writeReg_frame]
      exact congrArg List.tail hin
    have hrun := ih (everyStepKeepsTheInvariants s _ hinv hstep) (by rwa [hparams]) htail
    rw [List.length_cons, runSteps, hstep, andThen_next, hrun, List.foldl_cons]

theorem programInputs_singleton (p : Params) (st : Stmt) : programInputs p [st] = (st.lines p).map Line.inputs := by
  rw [programInputs, List.flatMap_singleton]

/-! ### `bits` -/

/-- The writes of `bits "s"`. -/
def bitsWrites (p : Params) (cs : List Bool) : List (Reg × Word) :=
  (.dataLen, (pack cs).len.setWidth 32) :: (List.range p.dw).map fun j => (.data j, hostWord (pack cs).bits j)

theorem bitsLines_eq (p : Params) (cs : List Bool) : bitsLines p cs = writeLines (bitsWrites p cs) := by
  simp [bitsLines, writeLines, bitsWrites]

theorem stores_of_mem_bitsWrites {p : Params} {cs : List Bool} : ∀ e ∈ bitsWrites p cs, Stores p e.1 := by
  refine List.forall_mem_cons.2 ⟨⟨rfl, nofun, nofun⟩, fun e he => ?_⟩
  obtain ⟨j, hj, rfl⟩ := List.mem_map.1 he
  exact ⟨decide_eq_true (List.mem_range.1 hj), nofun, nofun⟩

/-- A packed value after its first n host words were written from x (R38). -/
def loadWords (x : Bits) : Nat → Bits → Bits
  | 0, v => v
  | n + 1, v => setHostWord (loadWords x n v) n (hostWord x n)

theorem loadWords_getLsbD (x v : Bits) (n : Nat) {k : Nat} (hk : k < 1024) :
    (loadWords x n v).getLsbD k = if k < 32 * n then x.getLsbD k else v.getLsbD k := by
  induction n with
  | zero => rfl
  | succ n ih =>
    rw [loadWords, setHostWord_getLsbD _ _ _ hk, hostWord_getLsbD, ih]
    by_cases hn : 32 * n ≤ k
    · by_cases hw : k < 32 * n + 32
      · rw [if_pos ⟨hn, hw⟩, if_pos (by omega), decide_eq_true (by omega), Nat.add_sub_cancel' hn, Bool.true_and]
      · rw [if_neg (by omega), if_neg (by omega), if_neg (by omega)]
    · rw [if_neg (by omega), if_pos (by omega), if_pos (by omega)]

/-- Writing every word that either value has bits in replaces the one by the other. -/
theorem loadWords_eq {x v : Bits} {n : Nat} (hx : x.toNat < 2 ^ (32 * n)) (hv : v.toNat < 2 ^ (32 * n)) :
    loadWords x n v = x := by
  apply BitVec.eq_of_getLsbD_eq
  intro k hk
  rw [loadWords_getLsbD x v n hk]
  split_ifs with hlt
  · rfl
  · have hpow := Nat.pow_le_pow_right (n := 2) (by decide) (Nat.le_of_not_lt hlt)
    exact (Nat.testBit_lt_two_pow (hv.trans_le hpow)).trans (Nat.testBit_lt_two_pow (hx.trans_le hpow)).symm

/-- Writing the DATA words of x in order touches DATA's value alone, and the model's own fields. -/
theorem foldl_store_data (x : Bits) (n : Nat) {s : State} (hout : s.out = BusOut.zero) :
    ((List.range n).map fun j => (Reg.data j, hostWord x j)).foldl store s =
      { s with data := { s.data with bits := loadWords x n s.data.bits }, inputs := s.inputs.drop n } := by
  induction n with
  | zero => rfl
  | succ n ih =>
    rw [List.range_succ, List.map_append, List.foldl_append, ih, ← List.tail_drop, hout]
    rfl

theorem pack_wellFormed {cap : Nat} (hcap : cap ≤ 1024) {cs : List Bool} (hcs : cs.length ≤ cap) :
    wellFormed cap (pack cs) = true := by
  obtain ⟨hlen, -, hhigh⟩ := packingPutsTheFirstCharacterHighest cs (hcs.trans hcap)
  rw [wellFormed_iff, hlen]
  exact ⟨hcs, Nat.lt_pow_two_of_testBit _ hhigh⟩

/-- A length that is written to DATA_LEN is kept whole (R38, R66). -/
theorem writeReg_dataLen (s : State) (n : BitVec 16) :
    writeReg s .dataLen (n.setWidth 32) = { s with data := { s.data with len := n } } := by
  rw [writeReg, BitVec.setWidth_setWidth_of_le n (by decide), BitVec.setWidth_eq]

/-- The writes of `bits` replace the pair (DATA_LEN, DATA) by the packing. -/
theorem foldl_store_bits {s : State} (hinv : Invariants s) {cs : List Bool} (hcs : cs.length ≤ s.params.bmax) :
    (bitsWrites s.params cs).foldl store s =
      { s with data := pack cs, inputs := s.inputs.drop (s.params.dw + 1), out := BusOut.zero } := by
  obtain ⟨-, hcap, hmod, -⟩ := params_legal_iff.1 hinv.legal
  have hwidth : 32 * s.params.dw = s.params.bmax := by unfold Params.dw; omega
  obtain ⟨hlen, hbits⟩ := (wellFormed_iff _ _).1 (pack_wellFormed hcap hcs)
  have hload : loadWords (pack cs).bits s.params.dw s.data.bits = (pack cs).bits := by
    refine loadWords_eq ?_ ?_ <;> rw [hwidth]
    · exact hbits.trans_le (Nat.pow_le_pow_right (by decide) hlen)
    · exact (shiftRight_eq_zero_iff _ _).1 hinv.dataWidth
  have hlenWrite : store s (.dataLen, (pack cs).len.setWidth 32) = { s with
      data := { s.data with len := (pack cs).len }, inputs := s.inputs.tail, out := BusOut.zero } := by
    rw [store, writeReg_dataLen]
    rfl
  rw [bitsWrites, List.foldl_cons, hlenWrite, foldl_store_data _ _ rfl, hload, List.drop_tail]

theorem runSteps_bits {s : State} {cs : List Bool} {rest : List Inputs} (hinv : Invariants s)
    (hcs : cs.length ≤ s.params.bmax) (hin : s.inputs = programInputs s.params [.bits cs] ++ rest) :
    runSteps (s.params.dw + 1) s = .next { s with data := pack cs, inputs := rest, out := BusOut.zero } := by
  have hlen : (bitsWrites s.params cs).length = s.params.dw + 1 := by simp [bitsWrites]
  rw [programInputs_singleton, Stmt.lines, bitsLines_eq] at hin
  have hrun := runSteps_stores _ hinv stores_of_mem_bitsWrites hin
  have hrest : s.inputs.drop (s.params.dw + 1) = rest := by
    rw [hin]
    exact List.drop_left' (by rw [List.length_map, writeLines, List.length_map, hlen])
  rw [← hlen, hrun, foldl_store_bits hinv hcs, hrest]

/-! ### `key` -/

/-- The writes of `key K`. -/
def keyWrites (k : BitVec 64) : List (Reg × Word) :=
  [(.cfgKeyLo, k.extractLsb' 0 32), (.cfgKeyHi, k.extractLsb' 32 32)]

theorem keyLines_eq (k : BitVec 64) : keyLines k = writeLines (keyWrites k) := rfl

theorem key_halves_append (k : BitVec 64) : k.extractLsb' 32 32 ++ k.extractLsb' 0 32 = k := by
  apply BitVec.eq_of_toNat_eq
  rw [BitVec.toNat_append, ← Nat.shiftLeft_add_eq_or_of_lt (BitVec.isLt _), Nat.shiftLeft_eq, key_halves_toNat]

/-- The two halves of a key, written in order, are the whole key (R36). -/
theorem foldl_store_key (s : State) (k : BitVec 64) :
    (keyWrites k).foldl store s =
      { s with cfg := { s.cfg with key := k }, inputs := s.inputs.drop 2, out := BusOut.zero } := by
  have hkey : k.extractLsb' 32 32 ++ (s.cfg.key.extractLsb' 32 32 ++ k.extractLsb' 0 32).extractLsb' 0 32 = k :=
    (congrArg (k.extractLsb' 32 32 ++ ·) BitVec.extractLsb'_append_eq_right).trans (key_halves_append k)
  simp only [keyWrites, List.foldl_cons, List.foldl_nil, store, writeReg, State.setOut, State.consumeInputs, hkey,
    ← List.drop_one, List.drop_drop]

theorem runSteps_key {s : State} {k : BitVec 64} {rest : List Inputs} (hinv : Invariants s)
    (hin : s.inputs = programInputs s.params [.key k] ++ rest) :
    runSteps 2 s = .next { s with cfg := { s.cfg with key := k }, inputs := rest, out := BusOut.zero } := by
  rw [programInputs_singleton, Stmt.lines, keyLines_eq] at hin
  have hstores : ∀ e ∈ keyWrites k, Stores s.params e.1 := by
    simp [keyWrites, Stores, Reg.exists, Reg.access]
  have hrun := runSteps_stores _ hinv hstores hin
  exact hrun.trans (by rw [foldl_store_key, hin]; rfl)

/-! ### `clrflags` -/

theorem step_clrflags {s : State} {rest : List Inputs} (hinv : Invariants s)
    (hin : s.inputs = programInputs s.params [.clrflags] ++ rest) :
    step s = .next { s with flags := ⟨false, false, false, false⟩, inputs := rest, out := BusOut.zero } := by
  have hstep := step_store (e := (.status, 0xF00)) (rest := rest) hinv ⟨rfl, nofun, nofun⟩ hin
  have htail : s.inputs.tail = rest := congrArg List.tail hin
  rw [hstep, store, writeReg, clearFlags, ← htail]
  simp [State.setOut, State.consumeInputs]

/-! ### `config` -/

/-- An accepted write to CMD runs the command (R125). -/
theorem busSubstep_of_command {i : Inputs} {s : State} (h : accesses s.params i true .cmd) :
    busSubstep i s = exec (decodeWord i.busWdata) (s.setOut BusOut.zero) := by
  obtain ⟨-, hv, hw, ht⟩ := h
  simp [busSubstep, hv, hw, ht, executeWord]

/-- A cycle that writes CMD is the command and the later sub-steps (R124, R125). -/
theorem step_of_command {s : State} (h : accesses s.params s.currentInputs true .cmd) :
    step s = andThen (exec (decodeWord s.currentInputs.busWdata) (s.consumeInputs.setOut BusOut.zero))
      (restOfCycle s.currentInputs) := by
  rw [step, runCycle, if_neg (by simp [h.1]), busSubstep_of_command (s := s.consumeInputs) h]

theorem accesses_commandWrite (p : Params) (w : Word) : accesses p (Inputs.commandWrite w) true .cmd :=
  ⟨rfl, rfl, rfl, busTarget_cmd p⟩

/-- The writes of `config`. -/
def configWrites (a : ConfigArgs) : List (Reg × Word) :=
  [(.cfgCtrl, 0#30 ++ BitVec.ofBool a.bo.bit ++ BitVec.ofBool a.mode.bit), (.cfgWin, a.win), (.cfgTimeout, a.timeout),
   (.cfgMaxRetry, a.maxretry), (.cfgSlot, a.slot)] ++ keyWrites a.key

theorem configLines_eq (a : ConfigArgs) :
    configLines a = writeLines (configWrites a) ++ [[.bus (.command (encode .configure))]] := rfl

/-- A window that CONFIGURE may accept fits CFG_WIN (R8, R32). -/
theorem setWidth_win_toNat {p : Params} (hp : p.legal = true) {w : Word} (hw : w.toNat ≤ p.wmax) :
    (w.setWidth 8).toNat = w.toNat := by
  obtain ⟨-, -, -, -, hwmax, -⟩ := params_legal_iff.1 hp
  rw [BitVec.toNat_setWidth, Nat.mod_eq_of_lt (by omega)]

/-- The configuration that the arguments of `config` stage (R31 to R36). -/
def stagedConfig (a : ConfigArgs) : ConfigRegs :=
  { mode := a.mode, boMode := a.bo, win := a.win.setWidth 8, timeout := a.timeout
    maxRetry := a.maxretry.setWidth 16, slot := a.slot.setWidth 16, key := a.key }

/-- A write to CFG_CTRL of the word of two modes stages them (R31). -/
theorem writeReg_cfgCtrl (s : State) (b : BackoffMode) (m : CheckMode) :
    writeReg s .cfgCtrl (0#30 ++ BitVec.ofBool b.bit ++ BitVec.ofBool m.bit) =
      { s with cfg := { s.cfg with mode := m, boMode := b } } := by
  cases b <;> cases m <;> rfl

theorem foldl_store_config (s : State) (a : ConfigArgs) :
    (configWrites a).foldl store s =
      { s with cfg := stagedConfig a, inputs := s.inputs.drop 7, out := BusOut.zero } := by
  rw [configWrites, List.foldl_append, foldl_store_key]
  simp only [List.foldl_cons, List.foldl_nil, store, writeReg_cfgCtrl]
  simp only [writeReg, State.setOut, State.consumeInputs, ← List.drop_one, List.drop_drop, stagedConfig]

/-- CONFIGURE with a staged configuration that passes its checks (R127). -/
theorem execConfigure_of_valid {s : State} (hkey : s.cfg.mode = .crc → keyValid s.cfg.key = true)
    (hlo : 1 ≤ s.cfg.win.toNat) (hhi : s.cfg.win.toNat ≤ s.params.wmax) :
    execConfigure s = .next ((sessionReset { s with act := s.cfg, cfgValid := true }).setStatus .ok) := by
  have hkey' : ¬(s.cfg.mode = .crc ∧ keyValid s.cfg.key = false) := by rintro ⟨hm, hk⟩; simp [hkey hm] at hk
  rw [execConfigure, if_neg hkey', if_neg (by omega)]

/-- Right after a session reset nothing waits to start or to return from a backoff. -/
theorem internal_sessionReset (s : State) (c : StatusCode) :
    internal ((sessionReset s).setStatus c) = .next ((sessionReset s).setStatus c) :=
  internal_of_settled nofun fun h => Nat.lt_irrefl _ h.2.2

/-- The cycle of a CONFIGURE that passes its checks, with nothing else in it, starts the new session (R127). -/
theorem step_configure {s : State} {rest : List Inputs}
    (hin : s.inputs = Inputs.commandWrite (encode .configure) :: rest)
    (hkey : s.cfg.mode = .crc → keyValid s.cfg.key = true) (hlo : 1 ≤ s.cfg.win.toNat)
    (hhi : s.cfg.win.toNat ≤ s.params.wmax) :
    step s = .next ((sessionReset { s with
      act := s.cfg, cfgValid := true, inputs := rest, out := BusOut.zero }).setStatus .ok) := by
  have hcur : s.currentInputs = Inputs.commandWrite (encode .configure) := by rw [State.currentInputs, hin]
  have htail : s.inputs.tail = rest := congrArg List.tail hin
  have hexec := execConfigure_of_valid (s := s.consumeInputs.setOut BusOut.zero) hkey hlo hhi
  have hdecode : decodeWord (Inputs.commandWrite (encode .configure)).busWdata = .configure := decodeWord_encode rfl
  have hrest : restOfCycle (Inputs.commandWrite (encode .configure)) = internal := rfl
  rw [step_of_command (hcur ▸ accesses_commandWrite _ _), hcur, hdecode, hrest, ← htail]
  exact (congrArg (andThen · internal) hexec).trans (internal_sessionReset _ _)

/-- The eight cycles of `config` end as CONFIGURE leaves the staged configuration. -/
theorem runSteps_config {s : State} {a : ConfigArgs} {rest : List Inputs} (hinv : Invariants s)
    (hkey : a.mode = .crc → keyValid a.key = true) (hlo : 1 ≤ a.win.toNat) (hhi : a.win.toNat ≤ s.params.wmax)
    (hin : s.inputs = programInputs s.params [.config a] ++ rest) :
    runSteps 8 s = .next ((sessionReset { s with
      cfg := stagedConfig a, act := stagedConfig a, cfgValid := true
      inputs := rest, out := BusOut.zero }).setStatus .ok) := by
  have hstores : ∀ e ∈ configWrites a, Stores s.params e.1 := by
    simp [configWrites, keyWrites, Stores, Reg.exists, Reg.access]
  rw [programInputs_singleton, Stmt.lines, configLines_eq, List.map_append, List.append_assoc] at hin
  have hrun := runSteps_stores _ hinv hstores hin
  have hlast : s.inputs.drop 7 = Inputs.commandWrite (encode .configure) :: rest := by
    rw [hin]
    rfl
  have hwin : (a.win.setWidth 8).toNat = a.win.toNat := setWidth_win_toNat hinv.legal hhi
  rw [foldl_store_config, hlast] at hrun
  rw [← hwin] at hlo hhi
  rw [show 8 = (configWrites a).length + 1 from rfl, runSteps_add, hrun, andThen_next, runSteps,
    step_configure rfl hkey hlo hhi]
  rfl

/-! ### `ticks` and `cmd ACK` -/

theorem programInputs_ticks (p : Params) (n : Nat) : programInputs p [.ticks n] = List.replicate n tickOnly := by
  rw [programInputs_singleton, Stmt.lines, List.map_replicate]
  rfl

theorem programInputs_ack (p : Params) (n : BitVec 16) : programInputs p [.line [.bus (.command (encode (.ack n)))]]
    = [Inputs.commandWrite ((n.setWidth 32 <<< 16) ||| 0x4)] := by
  rw [programInputs_singleton, encode_ack]
  rfl

/-! ### The obligation -/

/-- Settles O50: each statement's inputs are a run of writes, ended for `config` by the command. -/
theorem pseudoInstructionsDoWhatTheyStandFor : Obligations.PseudoInstructionsDoWhatTheyStandFor := by
  refine ⟨fun s cs rest hinv hcs hin => ⟨runSteps_bits hinv hcs hin, ?_⟩,
    fun s a rest hinv hkey hlo hhi hretry hslot hin => ⟨_, runSteps_config hinv hkey hlo hhi hin, ?_⟩,
    fun s k rest hinv hin => runSteps_key hinv hin, fun s rest hinv hin => step_clrflags hinv hin,
    programInputs_ticks, programInputs_ack⟩
  · obtain ⟨-, hcap, -⟩ := params_legal_iff.1 hinv.legal
    exact pack_wellFormed hcap hcs
  · have hwin : (a.win.setWidth 8).toNat = a.win.toNat := setWidth_win_toNat hinv.legal hhi
    have hfield {x : Word} (hx : x.toNat < 2 ^ 16) : (x.setWidth 16).toNat = x.toNat := by
      rw [BitVec.toNat_setWidth, Nat.mod_eq_of_lt hx]
    exact ⟨rfl, rfl, rfl, rfl, rfl, hwin, rfl, hfield hretry, hfield hslot, rfl, rfl, seqInit_toNat hinv.legal, rfl, rfl,
      rfl, rfl⟩

end Sys2Proof.Proofs
end

section
/-! PROOFS. The validity of a key in terms of its coefficients (R95). -/

namespace Sys2Proof.Proofs

open Sys2Proof Sys2Proof.Machine

theorem bitlen_two_pow (m : Nat) : bitlen (2 ^ m) = m + 1 := by
  rw [bitlen, if_neg (Nat.two_pow_pos m).ne', Nat.log2_two_pow]

theorem lt_bitlen_of_testBit {v i : Nat} (h : v.testBit i = true) : i < bitlen v := by
  by_contra hi
  have hlt : v < 2 ^ i := (lt_two_pow_bitlen v).trans_le (Nat.pow_le_pow_right (by decide) (Nat.le_of_not_lt hi))
  simp [Nat.testBit_lt_two_pow hlt] at h

/-- A number with no bit but its highest is a power of two. -/
theorem eq_two_pow_of_testBit {v : Nat} (h0 : v ≠ 0) (h : ∀ i < bitlen v - 1, v.testBit i = false) :
    v = 2 ^ (bitlen v - 1) := by
  refine Nat.eq_of_testBit_eq fun i => ?_
  rw [Nat.testBit_two_pow]
  rcases Nat.lt_trichotomy i (bitlen v - 1) with hi | rfl | hi
  · rw [h i hi, decide_eq_false hi.ne']
  · rw [testBit_bitlen h0, decide_eq_true rfl]
  · rw [decide_eq_false hi.ne, Bool.eq_false_iff]
    intro hv
    have := lt_bitlen_of_testBit hv
    omega

theorem keyValid_iff_not_two_pow (g : BitVec 64) :
    keyValid g = true ↔ 2 ≤ bitlen g.toNat ∧ ¬∃ m, g.toNat = 2 ^ m := by
  rw [keyValid_iff, and_congr_right_iff]
  refine fun _ => not_congr ⟨fun h => ⟨_, h⟩, fun ⟨m, hm⟩ => ?_⟩
  rw [hm, bitlen_two_pow, Nat.add_sub_cancel]

theorem keyValid_iff_two_terms (g : BitVec 64) :
    keyValid g = true ↔ ∃ i j, i < j ∧ g.getLsbD i = true ∧ g.getLsbD j = true := by
  rw [keyValid_iff]
  constructor
  · rintro ⟨hlen, hpow⟩
    have h0 : g.toNat ≠ 0 := ne_zero_of_bitlen (Nat.le_of_succ_le hlen)
    by_contra hterms
    refine hpow (eq_two_pow_of_testBit h0 fun i hi => ?_)
    rw [Bool.eq_false_iff]
    exact fun hbit => hterms ⟨i, _, hi, hbit, testBit_bitlen h0⟩
  · rintro ⟨i, j, hij, hi, hj⟩
    have hjlen : j < bitlen g.toNat := lt_bitlen_of_testBit hj
    refine ⟨by omega, fun hpow => ?_⟩
    have honly {k : Nat} (hk : g.getLsbD k = true) : bitlen g.toNat - 1 = k := by
      rw [← BitVec.testBit_toNat, hpow, Nat.testBit_two_pow] at hk
      exact of_decide_eq_true hk
    exact hij.ne ((honly hi).symm.trans (honly hj))

/-- Settles O19: beside its highest bit, a number that is no power of two has another bit set. -/
theorem keyIsValidExactlyWithTwoTerms : Obligations.KeyIsValidExactlyWithTwoTerms :=
  fun g => ⟨keyValid_iff_not_two_pow g, keyValid_iff_two_terms g⟩

end Sys2Proof.Proofs
end

section
/-! PROOFS. What the configuration's mode selects (R87, R90, R94), and words that fit a larger capacity. -/

namespace Sys2Proof.Proofs

open Sys2Proof Sys2Proof.Machine

variable {c : ConfigRegs}

theorem redundancy_of_crc (hm : c.mode = .crc) : redundancy c = bitlen c.key.toNat - 1 := by rw [redundancy, hm]

theorem redundancy_of_parity (hm : c.mode = .parity) : redundancy c = 1 := by rw [redundancy, hm]

theorem encodeWith_of_crc (hm : c.mode = .crc) (p : BitString) : encodeWith c p = crcEncode c.key p := by
  rw [encodeWith, hm]

theorem encodeWith_of_parity (hm : c.mode = .parity) (p : BitString) : encodeWith c p = parityEncode p := by
  rw [encodeWith, hm]

theorem verifyWith_of_crc (hm : c.mode = .crc) (w : BitString) : verifyWith c w = crcVerify c.key w := by
  rw [verifyWith, hm]

theorem verifyWith_of_parity (hm : c.mode = .parity) (w : BitString) : verifyWith c w = parityVerify w := by
  rw [verifyWith, hm]

theorem wellFormed_mono {cap cap' : Nat} {b : BitString} (hcap : cap ≤ cap') (h : wellFormed cap b = true) :
    wellFormed cap' b = true := by
  obtain ⟨hlen, hbits⟩ := (wellFormed_iff _ _).1 h
  exact (wellFormed_iff _ _).2 ⟨hlen.trans hcap, hbits⟩

theorem wellFormed_empty (cap : Nat) : wellFormed cap BitString.empty = true := by
  simp [wellFormed, BitString.empty]

end Sys2Proof.Proofs
end

section
/-! PROOFS. Parity as the weight of the whole word (R89, R93, R100). -/

namespace Sys2Proof.Proofs

open Sys2Proof Sys2Proof.Machine

/-- The lowest bit counted first. -/
theorem popcountBelow_succ_shiftRight (n : Nat) (v : Bits) :
    popcountBelow (n + 1) v = popcountBelow n (v >>> 1) + (v.getLsbD 0).toNat := by
  induction n with
  | zero => rfl
  | succ n ih => rw [popcountBelow, ih, popcountBelow, BitVec.getLsbD_ushiftRight, Nat.add_comm 1 n, Nat.add_right_comm]

theorem popcountBelow_succ_of_getLsbD {n : Nat} {v : Bits} (h : v.getLsbD n = false) :
    popcountBelow (n + 1) v = popcountBelow n v := by
  rw [popcountBelow, h]
  rfl

theorem popcount_eq_shiftRight (v : Bits) : popcount v = popcount (v >>> 1) + (v.getLsbD 0).toNat := by
  have htop : (v >>> 1).getLsbD 1023 = false := by
    rw [BitVec.getLsbD_ushiftRight]
    exact BitVec.getLsbD_of_ge v 1024 (Nat.le_refl _)
  calc popcount v = popcountBelow 1023 (v >>> 1) + (v.getLsbD 0).toNat := popcountBelow_succ_shiftRight 1023 v
    _ = popcount (v >>> 1) + (v.getLsbD 0).toNat := by rw [popcount, popcountBelow_succ_of_getLsbD htop]

/-- The weight of an exclusive or has the parity of the two weights' sum. -/
theorem popcountBelow_xor_mod_two (n : Nat) (v w : Bits) :
    popcountBelow n (v ^^^ w) % 2 = (popcountBelow n v + popcountBelow n w) % 2 := by
  induction n with
  | zero => rfl
  | succ n ih =>
    simp only [popcountBelow, BitVec.getLsbD_xor]
    cases v.getLsbD n <;> cases w.getLsbD n <;> simp <;> omega

/-- R93: comparing the last bit with the parity of those before it is testing the weight of the word. -/
theorem parityVerify_eq {c : BitString} (hlen : 1 ≤ c.len.toNat) : parityVerify c = (popcount c.bits % 2 == 0) := by
  rw [parityVerify, if_neg (Nat.not_lt.2 hlen), popcount_eq_shiftRight c.bits]
  rcases Nat.mod_two_eq_zero_or_one (popcount (c.bits >>> 1)) with h | h <;>
    cases c.bits.getLsbD 0 <;> simp [Nat.add_mod, h]

theorem one_le_parityEncode_len {p : BitString} (hfit : p.len.toNat + 1 ≤ 1024) : 1 ≤ (parityEncode p).len.toNat := by
  have hlen : (parityEncode p).len.toNat = p.len.toNat + 1 := Nat.mod_eq_of_lt (by omega)
  omega

/-- The parity bit is the last one, and the payload stands above it (R89). -/
theorem getLsbD_parityEncode (p : BitString) (i : Nat) :
    (parityEncode p).bits.getLsbD i =
      if i = 0 then decide (popcount p.bits % 2 = 1) else decide (i < 1024) && p.bits.getLsbD (i - 1) := by
  rw [parityEncode, BitVec.getLsbD_or, BitVec.getLsbD_shiftLeft, BitVec.getLsbD_ofNat]
  cases i with
  | zero => simp [Nat.testBit_zero]
  | succ i =>
    have hbit : (popcount p.bits % 2).testBit (i + 1) = false :=
      Nat.testBit_lt_two_pow ((Nat.mod_lt _ (by decide)).trans_le (Nat.le_self_pow (Nat.succ_ne_zero i) 2))
    simp [hbit]

/-- R89: every parity codeword that fits has even weight. -/
theorem popcount_parityEncode_mod_two {p : BitString} (hp : wellFormed 1024 p = true)
    (hfit : p.len.toNat + 1 ≤ 1024) : popcount (parityEncode p).bits % 2 = 0 := by
  have hpayload : (parityEncode p).bits >>> 1 = p.bits := by
    refine BitVec.eq_of_getLsbD_eq fun i hi => ?_
    rw [BitVec.getLsbD_ushiftRight, getLsbD_parityEncode, if_neg (by omega), Nat.add_sub_cancel_left]
    by_cases h : 1 + i < 1024
    · rw [decide_eq_true h, Bool.true_and]
    · rw [decide_eq_false h, Bool.false_and, wellFormed_getLsbD hp (by omega)]
  rw [popcount_eq_shiftRight, hpayload, getLsbD_parityEncode, if_pos rfl]
  rcases Nat.mod_two_eq_zero_or_one (popcount p.bits) with h | h <;> simp [Nat.add_mod, h]

/-- Settles O18: the codeword's weight is even, so the flips alone decide the parity of the corrupted weight. -/
theorem parityDetectsExactlyTheOddFlips : Obligations.ParityDetectsExactlyTheOddFlips := by
  intro cap p e hcap hp hfit _
  have hfit' := hfit.trans hcap
  have heven : popcountBelow 1024 (parityEncode p).bits % 2 = 0 :=
    popcount_parityEncode_mod_two (wellFormed_mono hcap hp) hfit'
  have hweight : popcount ((parityEncode p).bits ^^^ e) % 2 = popcount e % 2 := by
    rw [popcount, popcountBelow_xor_mod_two, Nat.add_mod, heven, Nat.zero_add, Nat.mod_mod, popcount]
  have hverify := parityVerify_eq (c := ⟨(parityEncode p).len, (parityEncode p).bits ^^^ e⟩)
    (one_le_parityEncode_len hfit')
  rwa [hweight] at hverify

end Sys2Proof.Proofs
end

section
/-! PROOFS. CRC verification as divisibility by the key's polynomial, and verify on codewords (R88, R92, R98, R99). -/

namespace Sys2Proof.Proofs

open Sys2Proof Sys2Proof.Machine Sys2Proof.Safety

theorem gf2Poly_toNat_eq_zero_iff {w : Nat} (v : BitVec w) : gf2Poly w v.toNat = 0 ↔ v = 0#w := by
  refine ⟨fun h => BitVec.eq_of_getLsbD_eq fun i hi => ?_, fun h => ?_⟩
  · have hcoeff : (gf2Poly w v.toNat).coeff i = 0 := by rw [h, Polynomial.coeff_zero]
    simpa [hi, BitVec.testBit_toNat] using hcoeff
  · ext i
    simp [h]

/-- R92: a word is accepted exactly when G(x) divides it. -/
theorem crcVerify_iff_dvd {g : BitVec 64} {c : BitString} (hg : 2 ≤ bitlen g.toNat)
    (hc : wellFormed 1024 c = true) (hr : bitlen g.toNat - 1 ≤ c.len.toNat) :
    crcVerify g c = true ↔ gf2Poly 64 g.toNat ∣ gf2Poly 1024 c.bits.toNat := by
  obtain ⟨hlen, hbits⟩ := (wellFormed_iff _ _).1 hc
  obtain ⟨hmod, -⟩ := polymodIsThePolynomialRemainder c.bits c.len.toNat g hlen hbits hg
  rw [crcVerify, if_neg (Nat.not_lt.2 hr), beq_iff_eq, ← EuclideanDomain.mod_eq_zero, ← hmod]
  exact (gf2Poly_toNat_eq_zero_iff _).symm

/-- Shifted up by r, a value has no bit in common with one below 2^r. -/
theorem shiftLeft_or_eq_xor (v : Bits) {rem : Bits} {r : Nat} (hrem : rem.toNat < 2 ^ r) :
    v <<< r ||| rem = v <<< r ^^^ rem := by
  refine BitVec.eq_of_getLsbD_eq fun i _ => ?_
  rw [BitVec.getLsbD_or, BitVec.getLsbD_xor]
  rcases Nat.lt_or_ge i r with h | h
  · simp [h]
  · have hbit : rem.getLsbD i = false :=
      Nat.testBit_lt_two_pow (hrem.trans_le (Nat.pow_le_pow_right (by decide) h))
    simp [hbit]

/-- R88: the remainder makes the padded payload a multiple of G(x). -/
theorem dvd_crcEncode {g : BitVec 64} {p : BitString} (hg : 2 ≤ bitlen g.toNat) (hp : wellFormed 1024 p = true)
    (hfit : p.len.toNat + (bitlen g.toNat - 1) ≤ 1024) :
    gf2Poly 64 g.toNat ∣ gf2Poly 1024 (crcEncode g p).bits.toNat := by
  obtain ⟨-, hbits⟩ := (wellFormed_iff _ _).1 hp
  have hpad := shiftLeft_lt_two_pow (r := bitlen g.toNat - 1) hbits
  have hlt := polymod_lt hg hfit hpad
  rw [crcEncode, shiftLeft_or_eq_xor _ hlt, BitVec.toNat_xor, gf2Poly_xor, ← EuclideanDomain.mod_eq_zero,
    Polynomial.add_mod, gf2Poly_polymod_mod _ hg hfit, CharTwo.add_self_eq_zero]

/-- A CRC codeword that fits, as a word of the largest capacity (R8, R44). -/
theorem crcEncode_wellFormed {g : BitVec 64} {p : BitString} (hkey : keyValid g = true)
    (hp : wellFormed 1024 p = true) (hfit : p.len.toNat + (bitlen g.toNat - 1) ≤ 1024) :
    wellFormed 1024 (crcEncode g p) = true :=
  encodeWith_wellFormed (c := { ConfigRegs.zero with key := g }) (Nat.le_refl _) hp hfit fun _ => hkey

theorem crcEncode_len_toNat {g : BitVec 64} {p : BitString} (hfit : p.len.toNat + (bitlen g.toNat - 1) ≤ 1024) :
    (crcEncode g p).len.toNat = p.len.toNat + (bitlen g.toNat - 1) :=
  Nat.mod_eq_of_lt (by omega)

/-- R98 in CRC mode. -/
theorem crcVerify_crcEncode {g : BitVec 64} {p : BitString} (hkey : keyValid g = true)
    (hp : wellFormed 1024 p = true) (hfit : p.len.toNat + (bitlen g.toNat - 1) ≤ 1024) :
    crcVerify g (crcEncode g p) = true := by
  obtain ⟨hg, -⟩ := (keyValid_iff g).1 hkey
  have hr : bitlen g.toNat - 1 ≤ (crcEncode g p).len.toNat := by
    rw [crcEncode_len_toNat hfit]
    exact Nat.le_add_left ..
  exact (crcVerify_iff_dvd hg (crcEncode_wellFormed hkey hp hfit) hr).2 (dvd_crcEncode hg hp hfit)

/-- Settles O16: G(x) divides a CRC codeword, and a parity codeword has even weight. -/
theorem verifyAcceptsEveryCodeword : Obligations.VerifyAcceptsEveryCodeword := by
  intro c cap p hcap hp hkey hfit
  have hp' := wellFormed_mono hcap hp
  have hfit' := hfit.trans hcap
  cases hm : c.mode with
  | crc =>
    rw [redundancy_of_crc hm] at hfit'
    rw [verifyWith_of_crc hm, encodeWith_of_crc hm, crcVerify_crcEncode (hkey hm) hp' hfit']
  | parity =>
    rw [redundancy_of_parity hm] at hfit'
    rw [verifyWith_of_parity hm, encodeWith_of_parity hm, parityVerify_eq (one_le_parityEncode_len hfit'),
      popcount_parityEncode_mod_two hp' hfit']
    rfl

/-- A key with two terms divides no power of x: a divisor of x^i has a single term. -/
theorem not_dvd_X_pow {g : BitVec 64} (hkey : keyValid g = true) (i : Nat) :
    ¬gf2Poly 64 g.toNat ∣ Polynomial.X ^ i := by
  intro hdvd
  obtain ⟨m, -, hassoc⟩ := (dvd_prime_pow Polynomial.prime_X i).1 hdvd
  obtain ⟨u, hu⟩ := hassoc.symm
  obtain ⟨c, -, hc⟩ := Polynomial.isUnit_iff.1 u.isUnit
  obtain ⟨j, k, hjk, hj, hk⟩ := (keyValid_iff_two_terms g).1 hkey
  have honly {n : Nat} (hn : g.getLsbD n = true) : n = m := by
    have hlt : n < 64 := BitVec.lt_of_getLsbD hn
    have hcoeff : (gf2Poly 64 g.toNat).coeff n = 1 := by simp [hlt, hn, BitVec.testBit_toNat]
    by_contra hnm
    simp [← hu, ← hc, Polynomial.coeff_X_pow, hnm] at hcoeff
  exact hjk.ne ((honly hj).trans (honly hk).symm)

theorem gf2Poly_two_pow {n i : Nat} (hi : i < n) : gf2Poly n (2 ^ i) = Polynomial.X ^ i := by
  ext j
  rw [coeff_gf2Poly, Polynomial.coeff_X_pow, Nat.testBit_two_pow]
  by_cases h : j = i <;> simp [h, hi, Ne.symm]

/-- The flip of bit i of a codeword, as the packed value with that bit alone. -/
theorem toNat_cast_one_shiftLeft {w i : Nat} (hi : i < w) : ((1 <<< i : Nat) : BitVec w).toNat = 2 ^ i := by
  rw [BitVec.natCast_eq_ofNat, BitVec.toNat_ofNat, Nat.one_shiftLeft,
    Nat.mod_eq_of_lt (Nat.pow_lt_pow_right (by decide) hi)]

/-- Flipping a bit below its length keeps a string well formed. -/
theorem wellFormed_flip {c : BitString} {i : Nat} (hc : wellFormed 1024 c = true) (hi : i < c.len.toNat) :
    wellFormed 1024 { c with bits := c.bits ^^^ (1 <<< i : Nat) } = true := by
  obtain ⟨hlen, hbits⟩ := (wellFormed_iff _ _).1 hc
  refine (wellFormed_iff _ _).2 ⟨hlen, ?_⟩
  rw [BitVec.toNat_xor, toNat_cast_one_shiftLeft (hi.trans_le hlen)]
  exact Nat.xor_lt_two_pow hbits (Nat.pow_lt_pow_right (by decide) hi)

/-- Settles O17: G(x) divides the codeword, so it divides the corrupted word only if it divides x^i. -/
theorem crcRejectsEverySingleBitFlip : Obligations.CrcRejectsEverySingleBitFlip := by
  intro g cap p i hcap hp hkey hfit hi
  have hp' := wellFormed_mono hcap hp
  have hfit' := hfit.trans hcap
  obtain ⟨hg, -⟩ := (keyValid_iff g).1 hkey
  have hlen := crcEncode_len_toNat hfit'
  have hword := wellFormed_flip (crcEncode_wellFormed hkey hp' hfit') hi
  have hr : bitlen g.toNat - 1 ≤ (crcEncode g p).len.toNat := by omega
  have hi' : i < 1024 := by omega
  rw [Bool.eq_false_iff, ne_eq, crcVerify_iff_dvd hg hword hr, BitVec.toNat_xor, gf2Poly_xor,
    toNat_cast_one_shiftLeft hi', gf2Poly_two_pow hi', dvd_add_right (dvd_crcEncode hg hp' hfit')]
  exact not_dvd_X_pow hkey i

end Sys2Proof.Proofs
end

section
/-! PROOFS. `polymod` on packed strings as the division of their characters (R13, R60, R88). -/

namespace Sys2Proof.Proofs

open Sys2Proof Sys2Proof.Machine Sys2Proof.Safety

/-! ### Packing -/

/-- Bit i of V, where the string fits: the character i places from the end, and 0 where there is none. -/
theorem getLsbD_pack (s : List Bool) {i : Nat} (hi : i < 1024) :
    (pack s).bits.getLsbD i = s.reverse[i]?.getD false := by
  rw [pack, BitVec.getLsbD_ofNat, testBit_packValue, decide_eq_true hi, Bool.true_and]

theorem packValue_cons_false (s : List Bool) : packValue (false :: s) = packValue s := rfl

/-- Appending zeros is a shift. -/
theorem packValue_append_zeros (s : List Bool) (k : Nat) :
    packValue (s ++ List.replicate k false) = packValue s <<< k := by
  refine Nat.eq_of_testBit_eq fun i => ?_
  rw [testBit_packValue, Nat.testBit_shiftLeft, testBit_packValue, List.reverse_append, List.reverse_replicate]
  rcases Nat.lt_or_ge i k with h | h
  · simp [List.getElem?_append_left, h]
  · simp [List.getElem?_append_right, h]

theorem packValue_zipWith_xor {s t : List Bool} (h : s.length = t.length) :
    packValue (List.zipWith xor s t) = packValue s ^^^ packValue t := by
  refine Nat.eq_of_testBit_eq fun i => ?_
  rw [Nat.testBit_xor]
  simp only [testBit_packValue, List.reverse_zipWith h, List.getElem?_zipWith]
  rcases Nat.lt_or_ge i s.length with hi | hi
  · simp [hi, h ▸ hi]
  · simp [hi, h ▸ hi]

theorem packValue_lt (s : List Bool) : packValue s < 2 ^ s.length := by
  refine Nat.lt_pow_two_of_testBit _ fun i hi => ?_
  rw [testBit_packValue, List.getElem?_eq_none (by simpa using hi)]
  rfl

theorem testBit_packValue_cons (c : Bool) (s : List Bool) : (packValue (c :: s)).testBit s.length = c := by
  simp [testBit_packValue]

theorem bitlen_packValue_true_cons (s : List Bool) : bitlen (packValue (true :: s)) = s.length + 1 :=
  Nat.le_antisymm (bitlen_le (packValue_lt _)) (lt_bitlen_of_testBit (testBit_packValue_cons true s))

theorem ofNat_shiftLeft (w v k : Nat) : BitVec.ofNat w (v <<< k) = BitVec.ofNat w v <<< k := by
  rw [← BitVec.toNat_inj, BitVec.toNat_shiftLeft, BitVec.toNat_ofNat, BitVec.toNat_ofNat, Nat.shiftLeft_eq,
    Nat.shiftLeft_eq, Nat.mod_mul_mod]

theorem pack_append_zeros_bits (s : List Bool) (k : Nat) :
    (pack (s ++ List.replicate k false)).bits = (pack s).bits <<< k := by
  simp only [pack, packValue_append_zeros, ofNat_shiftLeft]

theorem pack_len_toNat {s : List Bool} (hs : s.length ≤ 1024) : (pack s).len.toNat = s.length :=
  Nat.mod_eq_of_lt (by omega)

/-- Appending a string of r characters is a shift by r with the string's value below it (R60). -/
theorem pack_append {t : List Bool} {r : Nat} (ht : t.length = r) (s : List Bool) :
    pack (s ++ t) = ⟨BitVec.ofNat 16 (s.length + r), (pack s).bits <<< r ||| (pack t).bits⟩ := by
  have hbits : (pack (s ++ t)).bits = (pack s).bits <<< r ||| (pack t).bits := by
    rw [← pack_append_zeros_bits]
    refine BitVec.eq_of_getLsbD_eq fun i hi => ?_
    rw [BitVec.getLsbD_or]
    simp only [getLsbD_pack _ hi, List.reverse_append, List.reverse_replicate]
    rcases Nat.lt_or_ge i r with h | h
    · simp [List.getElem?_append_left, h, ht]
    · simp [List.getElem?_append_right, h, ht]
  rw [← hbits, ← ht, ← List.length_append]
  rfl

/-! ### Division -/

/-- What the division makes of a dividend c :: s in one step. -/
theorem divideChars_succ_cons (key : List Bool) (k : Nat) (c : Bool) {s : List Bool} (hs : s.length = key.length + k) :
    divideChars key (k + 1) (c :: s) =
      divideChars key k (if c then List.zipWith xor s (key ++ List.replicate k false) else s) := by
  rw [divideChars, hs, Nat.add_sub_cancel_left]

/-- Cancelling a leading 1 is adding the shifted key: the two leading characters give the 0 that is dropped. -/
theorem pack_cancel_bits {key s : List Bool} {k : Nat} (hs : s.length = key.length + k) :
    (pack (List.zipWith xor s (key ++ List.replicate k false))).bits =
      (pack (true :: s)).bits ^^^ (pack (true :: key)).bits <<< k := by
  have hzip : List.zipWith xor (true :: s) (true :: key ++ List.replicate k false) =
      false :: List.zipWith xor s (key ++ List.replicate k false) := rfl
  rw [← pack_append_zeros_bits]
  simp only [pack]
  rw [← packValue_cons_false, ← hzip, packValue_zipWith_xor (by simp [hs]), BitVec.ofNat_xor]

/-- The loop of `polymod` runs the division of the characters, one leading character an iteration. -/
theorem polymodLoop_pack (key : List Bool) :
    ∀ (k : Nat) (s : List Bool), s.length = key.length + k → key.length + k ≤ 1024 →
      polymodLoop (pack (true :: key)).bits key.length k (pack s).bits = (pack (divideChars key k s)).bits
        ∧ (divideChars key k s).length = key.length
  | 0, _, hs, _ => ⟨rfl, hs⟩
  | k + 1, [], hs, _ => by simp at hs
  | k + 1, c :: s, hs, hk => by
    have hs' : s.length = key.length + k := Nat.succ.inj hs
    have hlead : (pack (c :: s)).bits.getLsbD (key.length + k) = c := by
      rw [getLsbD_pack _ (by omega), ← testBit_packValue, ← hs', testBit_packValue_cons]
    rw [divideChars_succ_cons key k c hs', polymodLoop, hlead]
    cases c with
    | false => exact polymodLoop_pack key k s hs' (by omega)
    | true =>
      rw [if_pos rfl, if_pos rfl, ← pack_cancel_bits hs']
      exact polymodLoop_pack key k _ (by simp [hs']) (by omega)

/-- The key's characters fit the key register, and the register's value is the packed key (R13, R87). -/
theorem keyOfChars_toNat {key : List Bool} (hkey : key.length ≤ 63) :
    (BitVec.ofNat 64 (packValue (true :: key))).toNat = packValue (true :: key) := by
  rw [BitVec.toNat_ofNat]
  exact Nat.mod_eq_of_lt ((packValue_lt _).trans_le (Nat.pow_le_pow_right (by decide) (Nat.succ_le_succ hkey)))

theorem bitlen_keyOfChars {key : List Bool} (hkey : key.length ≤ 63) :
    bitlen (BitVec.ofNat 64 (packValue (true :: key))).toNat - 1 = key.length := by
  rw [keyOfChars_toNat hkey, bitlen_packValue_true_cons, Nat.add_sub_cancel]

theorem setWidth_keyOfChars {key : List Bool} (hkey : key.length ≤ 63) :
    (BitVec.ofNat 64 (packValue (true :: key))).setWidth 1024 = (pack (true :: key)).bits :=
  (BitVec.ofNat_toNat 1024 _).symm.trans (congrArg (BitVec.ofNat 1024) (keyOfChars_toNat hkey))

/-- R13 on characters: the remainder of a string of n = r + k characters. -/
theorem polymod_pack {key s : List Bool} {k : Nat} (hkey : key.length ≤ 63) (hs : s.length = key.length + k)
    (hfit : s.length ≤ 1024) :
    polymod (pack s).bits s.length (BitVec.ofNat 64 (packValue (true :: key))) = (pack (divideChars key k s)).bits := by
  obtain ⟨hloop, -⟩ := polymodLoop_pack key k s hs (hs ▸ hfit)
  simp only [polymod, bitlen_keyOfChars hkey, setWidth_keyOfChars hkey]
  rw [hs, Nat.add_sub_cancel_left, hloop]

/-- Settles O14: the remainder of the padded payload is that of its characters, and appending it makes the codeword. -/
theorem crcEncodeIsDivisionOfTheCharacters : Obligations.CrcEncodeIsDivisionOfTheCharacters := by
  intro payload key _ hkey hfit
  have hpad : (payload ++ List.replicate key.length false).length = payload.length + key.length := by
    rw [List.length_append, List.length_replicate]
  have hpad' := hpad.trans (Nat.add_comm ..)
  obtain ⟨-, hrem⟩ := polymodLoop_pack key payload.length _ hpad' (by omega)
  have hpoly := polymod_pack hkey hpad' (by omega)
  rw [pack_append_zeros_bits, hpad] at hpoly
  rw [pack_append hrem, ← hpoly, crcEncode, bitlen_keyOfChars hkey, pack_len_toNat (by omega)]

end Sys2Proof.Proofs
end

section
/-! PROOFS. ENCODE and VERIFY branch by branch (R96, R97), and what they make of empty and all-zero operands. -/

namespace Sys2Proof.Proofs

open Sys2Proof Sys2Proof.Machine Sys2Proof.Safety

/-! ### All-zero operands -/

theorem polymodLoop_zero (g : Bits) (r : Nat) : ∀ k, polymodLoop g r k 0 = 0
  | 0 => rfl
  | k + 1 => by
    rw [polymodLoop, if_neg (by simp), polymodLoop_zero g r k]

theorem polymod_zero (n : Nat) (g : BitVec 64) : polymod 0 n g = 0 := polymodLoop_zero ..

theorem popcountBelow_zero : ∀ n, popcountBelow n 0 = 0
  | 0 => rfl
  | n + 1 => by
    rw [popcountBelow, popcountBelow_zero n]
    simp

theorem popcount_zero : popcount 0 = 0 := popcountBelow_zero 1024

/-- R96: an empty payload's codeword is its redundancy alone, all zero. -/
theorem encodeWith_empty (c : ConfigRegs) : encodeWith c BitString.empty = ⟨BitVec.ofNat 16 (redundancy c), 0⟩ := by
  have hlen (r : Nat) : BitString.empty.len.toNat + r = r := Nat.zero_add r
  have hbits : BitString.empty.bits = 0 := rfl
  have hshift (r : Nat) : (0 : Bits) <<< r = 0 := BitVec.zero_shiftLeft ..
  cases hm : c.mode with
  | crc => rw [encodeWith_of_crc hm, redundancy_of_crc hm, crcEncode, hlen, hbits, hshift, polymod_zero, BitVec.or_self]
  | parity =>
    rw [encodeWith_of_parity hm, redundancy_of_parity hm, parityEncode, hlen, hbits, hshift, popcount_zero]
    exact congrArg _ (BitVec.or_self ..)

/-! ### ENCODE -/

theorem execEncode_notConfigured {s : State} (hv : s.cfgValid = false) :
    execEncode s = .next (s.setStatus .notConfigured) := by
  rw [execEncode, if_pos hv]

theorem execEncode_malformed {s : State} (hv : s.cfgValid = true) (h : operandOk s = false ∨ fitsCodeword s = false) :
    execEncode s = .next (s.setStatus .malformedInput) := by
  rw [execEncode, if_neg (by simp [hv])]
  rcases h with ho | hf
  · rw [if_pos ho]
  · rw [if_pos hf, ite_self]

theorem execEncode_ok {s : State} {w : BitString} {r : Nat} (hv : s.cfgValid = true) (ho : operandOk s = true)
    (hr : redundancy s.act = r) (hf : s.data.len.toNat + r ≤ s.params.bmax) (hw : encodeWith s.act s.data = w) :
    execEncode s = .next ({ s with result := w }.setStatus .ok) := by
  rw [execEncode, if_neg (by simp [hv]), if_neg (by simp [ho]), if_neg (by simp [fitsCodeword, hr, hf]), hw]

/-- Settles O20: one clause for each branch of ENCODE, the last at the codeword of each mode and of the empty payload. -/
theorem encodeWritesTheCodewordToResult : Obligations.EncodeWritesTheCodewordToResult := by
  refine ⟨by decide, fun s => ⟨execEncode_notConfigured, fun hv ho => execEncode_malformed hv (.inl ho),
    fun hv _ hbig => execEncode_malformed hv (.inr (decide_eq_false (Nat.not_le.2 hbig))),
    fun hv ho hm hf => execEncode_ok hv ho (redundancy_of_crc hm) hf (encodeWith_of_crc hm _),
    fun hv ho hm hf => execEncode_ok hv ho (redundancy_of_parity hm) hf (encodeWith_of_parity hm _),
    fun hv hdata hf => ?_⟩⟩
  have hok : operandOk s = true := by rw [operandOk, hdata, wellFormed_empty]
  have hfit : s.data.len.toNat + redundancy s.act ≤ s.params.bmax := by
    rw [hdata]
    exact (Nat.zero_add _).trans_le hf
  exact execEncode_ok hv hok rfl hfit (hdata ▸ encodeWith_empty s.act)

/-! ### VERIFY -/

theorem verifyWith_crc_eq {c : ConfigRegs} {w : BitString} (hm : c.mode = .crc) (hr : redundancy c ≤ w.len.toNat) :
    verifyWith c w = decide (polymod w.bits w.len.toNat c.key = 0) := by
  rw [redundancy_of_crc hm] at hr
  rw [verifyWith_of_crc hm]
  exact if_neg (Nat.not_lt.2 hr)

theorem verifyWith_parity_eq {c : ConfigRegs} {w : BitString} (hm : c.mode = .parity)
    (hr : redundancy c ≤ w.len.toNat) : verifyWith c w = decide (popcount w.bits % 2 = 0) := by
  rw [redundancy_of_parity hm] at hr
  rw [verifyWith_of_parity hm]
  exact parityVerify_eq hr

/-- R92, R93: a word shorter than the redundancy is rejected. -/
theorem verifyWith_short {c : ConfigRegs} {w : BitString} (h : w.len.toNat < redundancy c) :
    verifyWith c w = false := by
  cases hm : c.mode with
  | crc =>
    rw [redundancy_of_crc hm] at h
    rw [verifyWith_of_crc hm]
    exact if_pos h
  | parity =>
    rw [redundancy_of_parity hm] at h
    rw [verifyWith_of_parity hm]
    exact if_pos h

/-- R97: the all-zero word of at least r bits is accepted in both modes. -/
theorem verifyWith_zero {c : ConfigRegs} {w : BitString} (hw : w.bits = 0) (hr : redundancy c ≤ w.len.toNat) :
    verifyWith c w = true := by
  cases hm : c.mode with
  | crc => rw [verifyWith_crc_eq hm hr, hw, polymod_zero, decide_eq_true rfl]
  | parity => rw [verifyWith_parity_eq hm hr, hw, popcount_zero, decide_eq_true (Nat.zero_mod 2)]

theorem execVerify_notConfigured {s : State} (hv : s.cfgValid = false) :
    execVerify s = .next ((s.setVerdict false).setStatus .notConfigured) := by
  rw [execVerify, if_pos hv]

theorem execVerify_malformed {s : State} (hv : s.cfgValid = true) (ho : operandOk s = false) :
    execVerify s = .next ((s.setVerdict false).setStatus .malformedInput) := by
  rw [execVerify, if_neg (by simp [hv]), if_pos ho]

theorem execVerify_ok {s : State} {b : Bool} (hv : s.cfgValid = true) (ho : operandOk s = true)
    (hb : verifyWith s.act s.data = b) : execVerify s = .next ((s.setVerdict b).setStatus .ok) := by
  rw [execVerify, if_neg (by simp [hv]), if_neg (by simp [ho]), hb]

/-- Settles O21: one clause for each branch of VERIFY, the last at the verdict of each kind of word. -/
theorem verifyWritesTheVerdict : Obligations.VerifyWritesTheVerdict :=
  ⟨by decide, fun _ => ⟨execVerify_notConfigured, execVerify_malformed,
    fun hv ho hshort => execVerify_ok hv ho (verifyWith_short hshort),
    fun hv ho hr hm => execVerify_ok hv ho (verifyWith_crc_eq hm hr),
    fun hv ho hr hm => execVerify_ok hv ho (verifyWith_parity_eq hm hr),
    fun hv ho hzero hr => execVerify_ok hv ho (verifyWith_zero hzero hr)⟩⟩

end Sys2Proof.Proofs
end

section
/-! PROOFS. The CSMA/CD unit: what starts and ends an attempt (R102 to R108), who leaves the held frame alone (R111), and how long a backoff keeps it out of sight (R110). -/

namespace Sys2Proof.Proofs

open Sys2Proof Sys2Proof.Machine Sys2Proof.Safety

/-! ### The start of an attempt -/

/-- Settles O32: TXPTR is in the window, so BUF has its payload, and an idle unit has no backoff to end first. -/
theorem attemptStartLatchesTheFrameAtTxptr : Obligations.AttemptStartLatchesTheFrameAtTxptr := by
  intro s ⟨hbase, _⟩ hbuf hcs hvalid hlt
  obtain ⟨p, hp⟩ := Buffer.get_of_keys hbuf hbase (by omega)
  have hnoExit : ¬(s.cs = .backoff ∧ s.bocnt = 0) := by simp [hcs]
  refine ⟨p, hp, ?_⟩
  rw [internal, if_neg hnoExit, if_pos ⟨hcs, hvalid, hlt⟩, txStart, hp]

/-! ### The responses -/

/-- After a transmission the timer is loaded where it is enabled and frames are outstanding, and nothing else is
written (R115). -/
theorem timerAfterTx_eq (s : State) :
    timerAfterTx s = { s with
      tmr := if s.act.timeout ≠ 0 ∧ s.next ≠ s.base then s.act.timeout else s.tmr
      tmrRun := if s.act.timeout ≠ 0 ∧ s.next ≠ s.base then true else s.tmrRun } := by
  obtain ⟨ht, hne, heq⟩ | ⟨hno, heq⟩ := timerAfterTx_cases s
  · rw [heq, if_pos ⟨ht, hne⟩, if_pos ⟨ht, hne⟩, State.loadTimer]
  · rw [heq, if_neg hno, if_neg hno]

/-- Settles O37: the first test of RESPOND. -/
theorem spuriousResponseOnlySetsItsFlag : Obligations.SpuriousResponseOnlySetsItsFlag := by
  intro s collision draw hcs
  rw [respond, if_pos hcs, spurious]

/-- Settles O34: the response is a Sent, which lets the frame go before it looks at the timer. -/
theorem sentEndsTheAttemptAndStartsTheTimer : Obligations.SentEndsTheAttemptAndStartsTheTimer := by
  intro s draw hcs
  rw [respond, if_neg (not_not.2 hcs), if_neg Bool.false_ne_true, sent, timerAfterTx_eq]
  rfl

/-- Settles O36: the collision is past the cap, and the abort lets the frame go before it looks at the timer. -/
theorem collisionPastTheCapAborts : Obligations.CollisionPastTheCapAborts := by
  intro s draw hcs hmax hcap
  refine ⟨collNext s.coll, collNext_toNat s.coll, ?_⟩
  rw [respond_collision_past_cap draw hcs hmax hcap, abort, timerAfterTx_eq]
  rfl

/-- In BEB mode the ticks fit BOCNT: at most 1023 slots of at most 65535 ticks (R29, R108). -/
theorem backoffTicks_toNat_of_beb {c : ConfigRegs} (h : c.boMode = .beb) (draw : BitVec 10) (n : BitVec 16) :
    (backoffTicks c draw n).toNat = draw.toNat % 2 ^ min n.toNat 10 * c.slot.toNat := by
  have hslots : draw.toNat % 2 ^ min n.toNat 10 ≤ 2 ^ 10 := (Nat.mod_le _ _).trans draw.isLt.le
  have hticks := Nat.mul_le_mul hslots c.slot.isLt.le
  rw [backoffTicks, h]
  exact Nat.mod_eq_of_lt (hticks.trans_lt (by decide))

/-- Settles O35: the collision is within the cap, and each backoff mode gives its ticks. -/
theorem collisionBelowTheCapBacksOff : Obligations.CollisionBelowTheCapBacksOff := by
  intro s draw hcs hcap
  exact ⟨collNext s.coll, backoffTicks s.act draw (collNext s.coll), respond_collision_of_le draw hcs hcap,
    collNext_toNat s.coll, fun hmode => backoffTicks_of_immediate hmode draw _,
    fun hmode => backoffTicks_toNat_of_beb hmode draw _⟩

/-- Settles O38: with no cap a run of any length stays within it. -/
theorem unboundedCollisionsNeverEndTheAttempt : Obligations.UnboundedCollisionsNeverEndTheAttempt := by
  intro s n draw rest _ hcs hmode hmax hin
  obtain ⟨t, hrun, hcoll, heq⟩ := runSteps_collisions n hcs hmode (.inl hmax) hin
  have hport : txPort t = txPort s := by rw [heq]; rfl
  have hvalid : (txPort s).valid = true := by rw [txPort, hcs]; rfl
  exact ⟨t, hrun, hport, hport ▸ hvalid, by rw [heq], by rw [heq], by rw [heq], by rw [heq], hcoll⟩

/-! ### Who leaves the unit alone -/

/-- The elements of the CSMA/CD unit: the held frame, CS, COLL and BOCNT (R28, R29, R47, R101). -/
def csmaUnit (s : State) : TxHold × CsState × BitVec 16 × Word := (s.txh, s.cs, s.coll, s.bocnt)

theorem onTimeout_csmaUnit (s : State) : csmaUnit (onTimeout s) = csmaUnit s := by
  rw [onTimeout_frame]
  rfl

/-- Only the session commands reach into the unit (R111, R128). -/
theorem exec_csmaUnit {c : Instr} {s t : State} (h : exec c s = .next t) (hdown : c ≠ .teardown)
    (hconf : c ≠ .configure) : csmaUnit t = csmaUnit s := by
  cases c with
  | nop => cases h; rfl
  | encode => obtain ⟨_, -, heq⟩ | ⟨-, -, -, heq⟩ := execEncode_cases s <;> cases heq.symm.trans h <;> rfl
  | verify => obtain ⟨_, _, heq⟩ := execVerify_cases s; cases heq.symm.trans h; rfl
  | send => obtain ⟨_, -, heq⟩ | ⟨-, -, -, -, -, heq⟩ := execSend_cases s <;> cases heq.symm.trans h <;> rfl
  | ack arg =>
    obtain ⟨-, -, heq⟩ | heq := execAck_cases arg s
    · rw [ackAccepted_frame] at heq
      cases heq.symm.trans h
      rfl
    · cases heq.symm.trans h
      rfl
  | timeout => cases h; exact onTimeout_csmaUnit s
  | configure => exact absurd rfl hconf
  | teardown => exact absurd rfl hdown
  | illegal w => cases h; rfl

theorem timerCountdown_csmaUnit (s : State) : csmaUnit (timerCountdown s) = csmaUnit s := by
  obtain ⟨-, heq⟩ | ⟨-, -, heq⟩ | ⟨-, -, heq⟩ := timerCountdown_cases s <;> rw [heq]
  · rfl
  · exact onTimeout_csmaUnit _

/-- A tick writes nothing of the unit but BOCNT, which it counts down to 0 in Backoff (R109). -/
theorem tickSubstep_csmaUnit (i : Inputs) (s : State) :
    (tickSubstep i s).txh = s.txh ∧ (tickSubstep i s).cs = s.cs ∧ (tickSubstep i s).coll = s.coll
      ∧ (s.cs = .backoff → (tickSubstep i s).bocnt.toNat = s.bocnt.toNat - i.tick.toNat) := by
  obtain ⟨htick, heq⟩ | ⟨htick, heq⟩ := tickSubstep_cases i s <;> rw [heq, htick]
  · exact ⟨rfl, rfl, rfl, fun _ => rfl⟩
  have hunit := timerCountdown_csmaUnit s
  simp only [csmaUnit, Prod.mk.injEq] at hunit
  obtain ⟨htxh, hcs, hcoll, hbocnt⟩ := hunit
  obtain ⟨-, hne, heq⟩ | ⟨hidle, heq⟩ := backoffCountdown_cases (timerCountdown s) <;> rw [heq]
  · refine ⟨htxh, hcs, hcoll, fun _ => ?_⟩
    rw [hbocnt] at hne ⊢
    have : s.bocnt.toNat ≠ 0 := fun h => hne (BitVec.eq_of_toNat_eq h)
    exact BitVec.toNat_sub_of_le (BitVec.le_def.2 (Nat.one_le_iff_ne_zero.2 this))
  · refine ⟨htxh, hcs, hcoll, fun hback => ?_⟩
    rw [hcs, hbocnt] at hidle
    have hzero : s.bocnt = 0 := by
      by_contra hne
      exact hidle ⟨hback, hne⟩
    rw [hbocnt, hzero]
    rfl

/-- Settles O41: a lemma for the commands and one for the tick. -/
theorem heldFrameIsIndependentOfTheSender : Obligations.HeldFrameIsIndependentOfTheSender := by
  refine ⟨fun c s t h hdown hconf => ?_, fun i s => ?_⟩
  · simpa only [csmaUnit, Prod.mk.injEq] using exec_csmaUnit h hdown hconf
  · obtain ⟨htxh, hcs, hcoll, -⟩ := tickSubstep_csmaUnit i s
    exact ⟨htxh, hcs, hcoll⟩

/-! ### The inputs to come -/

/-- The bus access takes nothing from the inputs still to come. -/
theorem busSubstep_inputs {i : Inputs} {s t : State} (h : busSubstep i s = .next t) : t.inputs = s.inputs := by
  obtain ⟨-, heq⟩ | ⟨_, -, -, heq⟩ | ⟨_, -, -, -, heq⟩ | ⟨-, -, -, heq⟩ | ⟨_, -, -, -, -, heq⟩ :=
    busSubstep_cases i s <;> have heq := heq.symm.trans h
  · cases heq
    rfl
  · cases heq
    rfl
  · cases heq
    rfl
  · obtain ⟨t', hexec, hframe⟩ := exec_commandFrame (decodeWord i.busWdata) (s.setOut BusOut.zero)
    cases hexec.symm.trans heq
    exact hframe.inputs
  · cases heq
    rw [writeReg_frame]
    rfl

/-- A step takes one cycle's inputs, reset or not (log entry 2). -/
theorem step_inputs {s t : State} (h : step s = .next t) : t.inputs = s.inputs.tail := by
  obtain ⟨-, rfl⟩ | ⟨-, s1, hbus, hint⟩ := runCycle_eq_next.1 h
  · rfl
  · have hrest := (internal_outsideChannel hint).trans
      ((tickSubstep_outsideChannel _ _).trans (respSubstep_outsideChannel _ s1))
    rw [eq_of_outsideChannel State.inputs hrest, busSubstep_inputs hbus, State.consumeInputs_inputs]

/-! ### The length of a backoff -/

/-- At the end of a cycle, frame f comes back in n ticks: it is held in Backoff until then, and on the TX port when no
tick is left (R110). -/
structure ReturnsIn (n : Nat) (f : TxHold) (s : State) : Prop where
  held : s.txh = f
  ticks : s.bocnt.toNat = n
  port : s.cs = if n = 0 then .transmitting else .backoff

/-- A cycle with neither a reset nor a bus access is its later sub-steps. -/
theorem step_of_no_access {s : State} (hrst : s.currentInputs.rst = false) (hbus : s.currentInputs.busValid = false) :
    step s = restOfCycle s.currentInputs (s.consumeInputs.setOut BusOut.zero) := by
  rw [step, runCycle, if_neg (by simp [hrst]), busSubstep, if_pos hbus, andThen_next]

/-- In Backoff the tick and internal sub-steps leave what the tick leaves of BOCNT to wait for. -/
theorem internal_tickSubstep_of_backoff (i : Inputs) {s : State} (hcs : s.cs = .backoff) :
    ∃ t, internal (tickSubstep i s) = .next t ∧ ReturnsIn (s.bocnt.toNat - i.tick.toNat) s.txh t := by
  obtain ⟨htxh, hcs', -, hticks⟩ := tickSubstep_csmaUnit i s
  rw [hcs] at hcs'
  rw [← hticks hcs, ← htxh]
  obtain ⟨-, hzero, heq⟩ | ⟨hidle, -⟩ | ⟨hwait, -, heq⟩ := internal_cases (tickSubstep i s)
  · exact ⟨_, heq, rfl, rfl, by rw [hzero]; rfl⟩
  · rw [hcs'] at hidle
    cases hidle
  · have hne : (tickSubstep i s).bocnt.toNat ≠ 0 := fun h => hwait ⟨hcs', BitVec.eq_of_toNat_eq h⟩
    exact ⟨_, heq, rfl, rfl, by rw [if_neg hne, hcs']⟩

/-- The cycle of a collision below the cap, with a tick in it or not, sends the frame into its backoff. -/
theorem step_collision_beb {s : State} {draw : BitVec 10} {own : Bool}
    (hin : s.currentInputs = { respOnly true draw with tick := own }) (hcs : s.cs = .transmitting)
    (hmode : s.act.boMode = .beb)
    (hcap : s.act.maxRetry = 0 ∨ min (s.coll.toNat + 1) 0xFFFF ≤ s.act.maxRetry.toNat) :
    ∃ t, step s = .next t
      ∧ ReturnsIn (draw.toNat % 2 ^ min (s.coll.toNat + 1) 10 * s.act.slot.toNat - own.toNat) s.txh t := by
  have hexp : min (collNext s.coll).toNat 10 = min (s.coll.toNat + 1) 10 := by
    rw [collNext_toNat]
    omega
  have hresp := respond_collision_of_le (s := s.consumeInputs.setOut BusOut.zero) draw hcs hcap
  obtain ⟨t, hint, ht⟩ := internal_tickSubstep_of_backoff { respOnly true draw with tick := own }
    (s := respond true draw (s.consumeInputs.setOut BusOut.zero)) (by rw [hresp])
  refine ⟨t, ?_, ?_⟩
  · rw [step_of_no_access (by rw [hin]; rfl) (by rw [hin]; rfl), hin]
    exact hint
  · rw [hresp] at ht
    rw [← hexp, ← backoffTicks_toNat_of_beb hmode]
    exact ht

/-- Each of the ticks to come brings the frame one tick nearer. -/
theorem step_tickOnly_of_returnsIn {n : Nat} {f : TxHold} {s : State} (hin : s.currentInputs = tickOnly)
    (h : ReturnsIn (n + 1) f s) : ∃ t, step s = .next t ∧ ReturnsIn n f t := by
  obtain ⟨hheld, hticks, hcs⟩ := h
  obtain ⟨t, hint, ht⟩ :=
    internal_tickSubstep_of_backoff tickOnly (s := s.consumeInputs.setOut BusOut.zero) hcs
  refine ⟨t, ?_, ?_⟩
  · rw [step_of_no_access (by rw [hin]; rfl) (by rw [hin]; rfl), hin]
    exact hint
  · have hleft : s.bocnt.toNat - tickOnly.tick.toNat = n := by rw [hticks]; rfl
    rw [← hleft, ← hheld]
    exact ht

/-- A run of ticks no longer than the backoff counts it down by one each. -/
theorem runSteps_ticks {f : TxHold} {rest : List Inputs} (k : Nat) {m : Nat} {s : State} (h : ReturnsIn (m + k) f s)
    (hin : s.inputs = List.replicate k tickOnly ++ rest) : ∃ t, runSteps k s = .next t ∧ ReturnsIn m f t := by
  induction k generalizing s with
  | zero => exact ⟨s, rfl, h⟩
  | succ k ih =>
    have hcur : s.currentInputs = tickOnly := by
      rw [State.currentInputs, hin]
      rfl
    obtain ⟨u, hstep, hu⟩ := step_tickOnly_of_returnsIn hcur h
    obtain ⟨t, hrun, ht⟩ := ih hu (by rw [step_inputs hstep, hin]; rfl)
    exact ⟨t, by rw [runSteps, hstep, andThen_next, hrun], ht⟩

/-- Settles O40: the collision's cycle leaves n ticks to wait, and each tick cycle one less. -/
theorem backedOffFrameReturnsAtTheLastTick : Obligations.BackedOffFrameReturnsAtTheLastTick := by
  intro s draw own b n rest _ hcs hmode hcap hb hn hin
  have hcur : s.currentInputs = { respOnly true draw with tick := own } := by rw [State.currentInputs, hin]
  obtain ⟨u, hstep, hu⟩ := step_collision_beb hcur hcs hmode hcap
  rw [← hb, ← hn] at hu
  have hrun (k : Nat) (hk : k ≤ n) : ∃ t, runSteps (k + 1) s = .next t ∧ ReturnsIn (n - k) s.txh t := by
    rw [runSteps, hstep, andThen_next]
    refine runSteps_ticks (rest := List.replicate (n - k) tickOnly ++ rest) k (by rwa [Nat.sub_add_cancel hk]) ?_
    rw [step_inputs hstep, hin, ← List.append_assoc, ← List.replicate_add, Nat.add_sub_cancel' hk, List.tail_cons]
  refine ⟨fun k hk => ?_, ?_⟩
  · obtain ⟨t, ht, hheld, hticks, hport⟩ := hrun k hk.le
    rw [if_neg (by omega)] at hport
    exact ⟨t, ht, by rw [txPort, hport]; rfl, hticks, hheld⟩
  · obtain ⟨t, ht, hheld, hticks, hport⟩ := hrun n le_rfl
    rw [Nat.sub_self] at hticks hport
    exact ⟨t, ht, by rw [txPort, hport]; rfl, BitVec.eq_of_toNat_eq hticks, hheld⟩

end Sys2Proof.Proofs
end

section
/-! PROOFS. The commands of the Go-Back-N sender branch by branch: SEND, ACK and TIMEOUT (R117 to R120). -/

namespace Sys2Proof.Proofs

open Sys2Proof Sys2Proof.Machine Sys2Proof.Safety

/-! ### The numbers in BUF -/

/-- A buffered number is an outstanding one (R41). -/
theorem outstanding_of_get {s : State} {q : Nat} {p : BitString} (h : BufferInvariant s)
    (hget : Buffer.get s.buf q = some p) : s.base.toNat ≤ q ∧ q < s.next.toNat := by
  have hmem : q ∈ s.buf.map Prod.fst := List.mem_map_of_mem (Buffer.mem_of_get hget)
  rw [h, List.mem_range'_1] at hmem
  omega

/-! ### SEND -/

theorem fitsCodeword_iff (s : State) :
    fitsCodeword s = true ↔ s.data.len.toNat + redundancy s.act ≤ s.params.bmax :=
  decide_eq_true_iff

theorem execSend_notConfigured {s : State} (hv : s.cfgValid = false) :
    execSend s = .next (s.setStatus .notConfigured) :=
  if_pos hv

theorem execSend_malformed {s : State} (hv : s.cfgValid = true) (h : operandOk s = false ∨ fitsCodeword s = false) :
    execSend s = .next (s.setStatus .malformedInput) := by
  rw [execSend, if_neg (by simp [hv]), if_pos h]

/-- With a configuration and a payload that fits, SEND looks at the window and then at the numbers left (R118, R142). -/
theorem execSend_of_fits {s : State} (hv : s.cfgValid = true) (ho : operandOk s = true)
    (hf : s.data.len.toNat + redundancy s.act ≤ s.params.bmax) :
    execSend s =
      if s.act.win.toNat ≤ s.outstanding then .next (s.setStatus .windowFull)
      else if s.next.toNat = s.params.seqLimit then .next (s.setStatus .seqExhausted)
      else .next ({ s with
        buf := Buffer.put s.buf s.next.toNat s.data, next := s.next + 1 }.setStatus .ok) := by
  rw [execSend, if_neg (by simp [hv]), if_neg (by simp [ho, (fitsCodeword_iff s).2 hf])]

/-- Settles O22: the number NEXT is new to BUF, and below SEQ_LIMIT the next one does not wrap. -/
theorem sendQueuesThePayloadUnderNext : Obligations.SendQueuesThePayloadUnderNext := by
  intro s hinv hv ho hf hwin hlimit
  obtain ⟨-, -, hle, -, -⟩ := hinv.window
  refine ⟨Buffer.put s.buf s.next.toNat s.data, ?_, ?_, fun q => ?_⟩
  · exact (execSend_of_fits hv ho hf).trans ((if_neg (Nat.not_le.2 hwin)).trans (if_neg hlimit))
  · exact (midCycle_of_invariants hinv).add_one_toNat (Nat.lt_of_le_of_ne hle hlimit)
  · exact Buffer.get_put _ _ _ _ (Buffer.wf_of_keys hinv.buffer)

/-- Settles O23: one clause for each error of SEND, in the order of its tests. -/
theorem sendReportsTheFirstErrorOnly : Obligations.SendReportsTheFirstErrorOnly :=
  fun _ => ⟨execSend_notConfigured,
    fun hv hbad => execSend_malformed hv (hbad.imp_right fun hbig => decide_eq_false (Nat.not_le.2 hbig)),
    fun hv ho hf hfull => (execSend_of_fits hv ho hf).trans (if_pos hfull),
    fun hv ho hf hroom hlimit =>
      (execSend_of_fits hv ho hf).trans ((if_neg (Nat.not_le.2 hroom)).trans (if_pos hlimit))⟩

/-! ### ACK -/

/-- What an ACK inside the window makes of every element it writes (R119). -/
def acked (a : BitVec 16) (s : State) : State :=
  { s with
    buf := Buffer.removeRange s.buf s.base.toNat a.toNat
    base := a + 1
    txptr := if s.txptr.toNat ≤ a.toNat then a + 1 else s.txptr
    tmr := if a + 1 = s.next then 0 else s.act.timeout
    tmrRun := decide (a + 1 ≠ s.next ∧ s.act.timeout ≠ 0)
    last := .ok }

/-- Under the invariants a timer that the ACK leaves alone, because it is not enabled, is stopped at 0 = ACT_TIMEOUT, so
the three cases of the timer are one formula. -/
theorem execAck_of_outstanding {s : State} {a : BitVec 16} (h : MidCycle s) (hlo : s.base.toNat ≤ a.toNat)
    (hhi : a.toNat < s.next.toNat) : execAck a s = .next (acked a s) := by
  obtain ⟨-, -, hnl, -, -⟩ := h.window
  have hbase : (a + 1).toNat = a.toNat + 1 := h.add_one_toNat (by omega)
  have hwindow : ackWindow a s = { s with
      buf := (acked a s).buf, base := (acked a s).base, txptr := (acked a s).txptr } := by
    simp only [ackWindow, acked, hbase, Nat.lt_succ_iff]
  rw [execAck, if_pos ⟨hlo, hhi⟩]
  obtain ⟨hempty, heq⟩ | ⟨hleft, ht, heq⟩ | ⟨hleft, ht, heq⟩ := ackAccepted_cases a s <;> rw [heq, hwindow, acked]
  · rw [if_pos hempty, decide_eq_false fun hrun => hrun.1 hempty]
    rfl
  · rw [if_neg hleft, decide_eq_true ⟨hleft, ht⟩]
    rfl
  · obtain ⟨hstop, htmr⟩ := h.timer_stopped fun hrun => hrun.2 ht
    rw [if_neg hleft, decide_eq_false fun hrun => hrun.2 ht, ← hstop, ht, ← htmr]
    rfl

/-- Settles O24: no number below BASE is in BUF, so the numbers removed are all those up to the ACK. -/
theorem ackInsideTheWindowIsCumulative : Obligations.AckInsideTheWindowIsCumulative := by
  intro s a hinv hlo hhi
  have hmid := midCycle_of_invariants hinv
  obtain ⟨-, -, hnl, -, -⟩ := hinv.window
  refine ⟨_, execAck_of_outstanding hmid hlo hhi, hmid.add_one_toNat (by omega), fun q => ?_⟩
  rw [Buffer.get_removeRange]
  rcases Nat.lt_or_ge q s.base.toNat with hq | hq
  · have hnone : Buffer.get s.buf q = none :=
      Option.eq_none_iff_forall_ne_some.2 fun p hget => by
        have := outstanding_of_get hinv.buffer hget
        omega
    rw [hnone, ite_self, ite_self]
  · simp only [hq, true_and]

/-- Settles O25: the number fails the one test of ACK. -/
theorem ackOutsideTheWindowIsReported : Obligations.AckOutsideTheWindowIsReported := by
  intro s a hout
  exact if_neg (by omega)

/-! ### TIMEOUT -/

/-- Settles O26: the two cases of `on_timeout()`. -/
theorem timeoutRewindsTheTransmitPointer : Obligations.TimeoutRewindsTheTransmitPointer := by
  have hexec (s : State) : exec .timeout s = .next ((onTimeout s).setStatus .ok) := rfl
  refine ⟨decodeWord_encode (i := .timeout) rfl, fun s => ⟨fun hempty => ?_, fun hout => ?_⟩⟩
  · rw [hexec, onTimeout, if_pos hempty]
    rfl
  · rw [hexec, onTimeout, if_neg hout]
    rfl

end Sys2Proof.Proofs
end

section
/-! PROOFS. What a cycle can do to the window: BASE, NEXT and the payloads in BUF (R122, R128). -/

namespace Sys2Proof.Proofs

open Sys2Proof Sys2Proof.Machine Sys2Proof.Safety

/-- The elements of the sender that only commands and reset write. -/
structure Window where
  base : BitVec 16
  next : BitVec 16
  buf : Buffer

/-- The window of a state. -/
def window (s : State) : Window := ⟨s.base, s.next, s.buf⟩

/-- All that a command or a cycle can do to the window; `restarts` is what it takes to begin a new session. -/
inductive WindowMove (restarts : Prop) (p : Params) (v w : Window) : Prop where
  | kept (h : w = v)
  | queued (payload : BitString) (hlimit : v.next.toNat ≠ p.seqLimit)
      (h : w = ⟨v.base, v.next + 1, Buffer.put v.buf v.next.toNat payload⟩)
  | acked (a : BitVec 16) (hlo : v.base.toNat ≤ a.toNat) (hhi : a.toNat < v.next.toNat)
      (h : w = ⟨a + 1, v.next, Buffer.removeRange v.buf v.base.toNat a.toNat⟩)
  | restarted (hr : restarts) (h : w = ⟨BitVec.ofNat 16 p.seqInit, BitVec.ofNat 16 p.seqInit, []⟩)

theorem WindowMove.imp {restarts restarts' : Prop} {p : Params} {v w : Window} (h : WindowMove restarts p v w)
    (hr : restarts → restarts') : WindowMove restarts' p v w := by
  cases h with
  | kept h => exact .kept h
  | queued payload hlimit h => exact .queued payload hlimit h
  | acked a hlo hhi h => exact .acked a hlo hhi h
  | restarted hold h => exact .restarted (hr hold) h

/-- SEND queues, ACK acknowledges, the session commands restart, and no other command touches the window. -/
theorem exec_windowMove {c : Instr} {s t : State} (h : exec c s = .next t) :
    WindowMove (c = .teardown ∨ c = .configure ∧ t.last = .ok) s.params (window s) (window t) := by
  cases c with
  | nop => cases h; exact .kept rfl
  | encode => obtain ⟨_, -, heq⟩ | ⟨-, -, -, heq⟩ := execEncode_cases s <;> cases heq.symm.trans h <;> exact .kept rfl
  | verify => obtain ⟨_, _, heq⟩ := execVerify_cases s; cases heq.symm.trans h; exact .kept rfl
  | send =>
    obtain ⟨_, -, heq⟩ | ⟨-, -, -, -, hlimit, heq⟩ := execSend_cases s <;> cases heq.symm.trans h
    · exact .kept rfl
    · exact .queued s.data hlimit rfl
  | ack a =>
    obtain ⟨hlo, hhi, heq⟩ | heq := execAck_cases a s <;> cases heq.symm.trans h
    · refine .acked a hlo hhi ?_
      obtain ⟨-, heq⟩ | ⟨-, -, heq⟩ | ⟨-, -, heq⟩ := ackAccepted_cases a s <;> rw [heq] <;> rfl
    · exact .kept rfl
  | timeout => cases h; exact .kept (by rw [onTimeout_frame]; rfl)
  | configure =>
    obtain ⟨_, -, heq⟩ | ⟨-, -, -, heq⟩ := execConfigure_cases s <;> cases heq.symm.trans h
    · exact .kept rfl
    · exact .restarted (.inr ⟨rfl, rfl⟩) rfl
  | teardown => cases h; exact .restarted (.inl rfl) rfl
  | illegal w => cases h; exact .kept rfl

/-- The bus access moves the window as the command it runs does. -/
theorem busSubstep_windowMove {i : Inputs} {s t : State} (hrst : i.rst = false) (h : busSubstep i s = .next t) :
    WindowMove (runsCommand s.params i .teardown ∨ runsCommand s.params i .configure ∧ t.last = .ok) s.params
      (window s) (window t) := by
  obtain ⟨-, heq⟩ | ⟨_, -, -, heq⟩ | ⟨_, -, -, -, heq⟩ | ⟨hv, hw, ht, heq⟩ | ⟨_, -, -, -, -, heq⟩ :=
    busSubstep_cases i s <;> have heq := heq.symm.trans h
  · cases heq
    exact .kept rfl
  · cases heq
    exact .kept rfl
  · cases heq
    exact .kept rfl
  · have hacc : accesses s.params i true .cmd := ⟨hrst, hv, hw, hw ▸ ht⟩
    exact (exec_windowMove heq).imp (Or.imp (⟨hacc, ·⟩) (And.imp_left (⟨hacc, ·⟩)))
  · cases heq
    exact .kept (by rw [writeReg_frame]; rfl)

/-- A step moves the window as its bus access or reset does: the later sub-steps leave the window and LAST alone. -/
theorem step_windowMove {s t : State} (h : step s = .next t) :
    WindowMove (s.currentInputs.rst = true ∨ runsCommand s.params s.currentInputs .teardown
        ∨ runsCommand s.params s.currentInputs .configure ∧ t.last = .ok) s.params (window s) (window t) := by
  obtain ⟨hrst, rfl⟩ | ⟨hrst, -⟩ := runCycle_eq_next.1 h
  · exact .restarted (.inl hrst) rfl
  · obtain ⟨s1, hbus, hrest, -⟩ := step_eq_busSubstep_outsideChannel h hrst
    rw [eq_of_outsideChannel window hrest, eq_of_outsideChannel State.last hrest]
    exact (busSubstep_windowMove (s := s.consumeInputs) hrst hbus).imp .inr

/-- Settles O30: of the moves of the window only a restart takes a number back, and the invariants after the step put
TXPTR between the equal BASE and NEXT. -/
theorem sequenceNumbersOnlyGrowInASession : Obligations.SequenceNumbersOnlyGrowInASession := by
  intro s t hinv h
  obtain ⟨-, -, hnl, -, -⟩ := hinv.window
  have hadd {q : BitVec 16} := (midCycle_of_invariants hinv).add_one_toNat (q := q)
  have hmove := step_windowMove h
  generalize hw : window t = w at hmove
  have hbase : t.base = w.base := congrArg Window.base hw
  have hnext : t.next = w.next := congrArg Window.next hw
  have hbuf : t.buf = w.buf := congrArg Window.buf hw
  rw [hbase, hnext, hbuf]
  cases hmove with
  | kept hw => subst hw; exact .inl ⟨le_rfl, le_rfl, Nat.le_succ _⟩
  | queued p hlimit hw =>
    subst hw
    have hlast : (s.next + 1).toNat = s.next.toNat + 1 := hadd (Nat.lt_of_le_of_ne hnl hlimit)
    exact .inl ⟨le_rfl, hlast ▸ Nat.le_succ _, hlast.le⟩
  | acked a hlo hhi hw =>
    subst hw
    have hfirst : (a + 1).toNat = a.toNat + 1 := hadd (hhi.trans_le hnl)
    exact .inl ⟨hfirst ▸ hlo.trans (Nat.le_succ _), le_rfl, Nat.le_succ _⟩
  | restarted hr hw =>
    subst hw
    have hinit := seqInit_toNat hinv.legal
    obtain ⟨hlo, hhi, -, -, -⟩ := (everyStepKeepsTheInvariants s t hinv h).window
    rw [hbase, hinit] at hlo
    rw [hnext, hinit] at hhi
    exact .inr ⟨hr, hinit, hinit, le_antisymm hhi hlo, rfl⟩

/-- Settles O31: SEND puts its payload under a number that BUF does not hold yet, an ACK only removes, and a restart
leaves no entry. -/
theorem bufferedPayloadsAreNeverMutated : Obligations.BufferedPayloadsAreNeverMutated := by
  intro s t q p p' hinv h hget hget'
  have hmove := step_windowMove h
  generalize hw : window t = w at hmove
  have hbuf : t.buf = w.buf := congrArg Window.buf hw
  rw [hbuf] at hget'
  cases hmove with
  | kept hw => subst hw; exact Option.some_inj.1 (hget'.symm.trans hget)
  | queued payload hlimit hw =>
    subst hw
    obtain ⟨-, hlt⟩ := outstanding_of_get hinv.buffer hget
    have hput := Buffer.get_put s.buf s.next.toNat q payload (Buffer.wf_of_keys hinv.buffer)
    rw [if_neg hlt.ne] at hput
    exact Option.some_inj.1 (hget'.symm.trans (hput.trans hget))
  | acked a hlo hhi hw =>
    subst hw
    have hkept : Buffer.get s.buf q = some p' := by
      have hremoved := (Buffer.get_removeRange s.buf s.base.toNat a.toNat q).symm.trans hget'
      split_ifs at hremoved
      exact hremoved
    exact Option.some_inj.1 (hkept.symm.trans hget)
  | restarted hr hw => subst hw; cases hget'

end Sys2Proof.Proofs
end

section
/-! PROOFS. The retransmission timer along ticks (R116, R117), and against an ACK in the same cycle (R121). -/

namespace Sys2Proof.Proofs

open Sys2Proof Sys2Proof.Machine Sys2Proof.Safety

/-! ### The timer by itself -/

/-- TMR and TMR_RUN, with the reports that a timeout writes, CNT_TOUT and F_TOUT. -/
structure Timer where
  tmr : Word
  run : Bool
  count : Word
  flag : Bool

/-- The timer of a state. -/
def timer (s : State) : Timer := ⟨s.tmr, s.tmrRun, s.counters.tout, s.flags.tout⟩

namespace Timer

/-- The timer after an effective timeout (R117). -/
def expired (v : Timer) : Timer := ⟨0, false, v.count + 1, true⟩

/-- What a tick makes of a timer that runs only while frames are outstanding (`tickSubstep_timer`). -/
def tick (v : Timer) : Timer :=
  if v.run = false then v
  else if v.tmr = 1 then v.expired
  else { v with tmr := v.tmr - 1 }

variable {v : Timer}

theorem tick_of_stopped (h : v.run = false) : v.tick = v := if_pos h

theorem tick_of_last (h : v.run = true) (hone : v.tmr = 1) : v.tick = v.expired :=
  (if_neg (by simp [h])).trans (if_pos hone)

theorem tick_of_running (h : v.run = true) (hne : v.tmr ≠ 1) : v.tick = { v with tmr := v.tmr - 1 } :=
  (if_neg (by simp [h])).trans (if_neg hne)

/-- A timer at n+1 is at n+1-k after k <= n ticks. -/
theorem tick_iterate {n k : Nat} (h : v.run = true) (htmr : v.tmr.toNat = n + 1) (hk : k ≤ n) :
    tick^[k] v = { v with tmr := v.tmr - BitVec.ofNat 32 k } := by
  induction k with
  | zero => rw [BitVec.sub_zero]; rfl
  | succ k ih =>
    have hne : v.tmr - BitVec.ofNat 32 k ≠ 1 := by bv_omega
    have hdown : v.tmr - BitVec.ofNat 32 k - 1 = v.tmr - BitVec.ofNat 32 (k + 1) := by bv_omega
    rw [Function.iterate_succ_apply', ih (by omega), ← hdown]
    exact tick_of_running (v := { v with tmr := v.tmr - BitVec.ofNat 32 k }) h hne

/-- A timer at n+1 expires at the (n+1)-th tick. -/
theorem tick_iterate_last {n : Nat} (h : v.run = true) (htmr : v.tmr.toNat = n + 1) :
    tick^[n + 1] v = v.expired := by
  have hone : v.tmr - BitVec.ofNat 32 n = 1 := by bv_omega
  rw [Function.iterate_succ_apply', tick_iterate h htmr le_rfl]
  exact tick_of_last (v := { v with tmr := v.tmr - BitVec.ofNat 32 n }) h hone

end Timer

/-! ### The timer in the machine -/

/-- The tick sub-step ticks the timer, and its backoff countdown leaves the timer alone (R116). -/
theorem tickSubstep_timer {i : Inputs} {s : State} (htick : i.tick = true) (hinv : TimerInvariant s) :
    timer (tickSubstep i s) = (timer s).tick := by
  have hbackoff (u : State) : timer (backoffCountdown u) = timer u := by
    obtain ⟨-, -, heq⟩ | ⟨-, heq⟩ := backoffCountdown_cases u <;> rw [heq]
    rfl
  rw [tickSubstep, if_pos htick, hbackoff]
  obtain ⟨hrun, heq⟩ | ⟨hrun, hne, heq⟩ | ⟨hrun, hzero, heq⟩ := timerCountdown_cases s <;> rw [heq]
  · exact (Timer.tick_of_stopped hrun).symm
  · have hmore : s.tmr ≠ 1 := fun hone => hne (sub_eq_zero.2 hone)
    exact (Timer.tick_of_running (v := timer s) hrun hmore).symm
  · have hlast : (timer s).tick = (timer s).expired := Timer.tick_of_last hrun (sub_eq_zero.1 hzero)
    obtain ⟨hout, -⟩ := hinv.2 hrun
    rw [hlast, onTimeout, if_neg hout]
    rfl

theorem internal_timer {s t : State} (h : internal s = .next t) : timer t = timer s := by
  rw [internal_frame h]
  rfl

/-- A cycle whose only input is a tick ticks the timer and leaves the window alone. -/
theorem step_tickOnly {s t : State} (hin : s.currentInputs = tickOnly) (hinv : TimerInvariant s)
    (h : step s = .next t) : timer t = (timer s).tick ∧ window t = window s := by
  rw [step_of_no_access (by rw [hin]; rfl) (by rw [hin]; rfl), hin] at h
  have hwindow : window t = window (s.consumeInputs.setOut BusOut.zero) :=
    eq_of_outsideChannel window ((internal_outsideChannel h).trans (tickSubstep_outsideChannel _ _))
  exact ⟨(internal_timer h).trans (tickSubstep_timer rfl hinv), hwindow⟩

/-! ### Runs of cycles with the same inputs -/

/-- A run takes one cycle's inputs a step. -/
theorem runSteps_inputs {s t : State} {n : Nat} (h : runSteps n s = .next t) : t.inputs = s.inputs.drop n := by
  induction n generalizing s with
  | zero => cases h; rfl
  | succ n ih =>
    obtain ⟨u, hstep, hrun⟩ := andThen_eq_next.1 h
    rw [ih hrun, step_inputs hstep, List.drop_tail]

theorem currentInputs_of_replicate {s t : State} {i : Inputs} {k n : Nat} {rest : List Inputs}
    (hin : s.inputs = List.replicate n i ++ rest) (hk : k < n) (h : runSteps k s = .next t) :
    t.currentInputs = i := by
  obtain ⟨m, rfl⟩ := Nat.exists_eq_add_of_lt hk
  have hleft : k + m + 1 - k = m + 1 := by omega
  rw [State.currentInputs, runSteps_inputs h, hin, List.drop_append_of_le_length (by simp; omega), List.drop_replicate,
    hleft]
  rfl

theorem runSteps_succ {s t u : State} {n : Nat} (h : runSteps n s = .next t) (hstep : step t = .next u) :
    runSteps (n + 1) s = .next u := by
  rw [runSteps_add, h, andThen_next, runSteps, hstep, andThen_next, runSteps]

/-- A run of tick cycles ticks the timer once a cycle and leaves the window alone. -/
theorem runSteps_tickOnly {s : State} {n k : Nat} {rest : List Inputs} (hinv : Invariants s)
    (hin : s.inputs = List.replicate n tickOnly ++ rest) (hk : k ≤ n) :
    ∃ t, runSteps k s = .next t ∧ Invariants t ∧ timer t = Timer.tick^[k] (timer s) ∧ window t = window s := by
  induction k with
  | zero => exact ⟨s, rfl, hinv, rfl, rfl⟩
  | succ k ih =>
    obtain ⟨u, hu, huinv, hutimer, huwindow⟩ := ih (Nat.le_of_succ_le hk)
    obtain ⟨t, hstep, htinv⟩ := step_of_invariants huinv
    obtain ⟨httimer, htwindow⟩ := step_tickOnly (currentInputs_of_replicate hin hk hu) huinv.timer hstep
    exact ⟨t, runSteps_succ hu hstep, htinv,
      by rw [httimer, hutimer, Function.iterate_succ_apply'], htwindow.trans huwindow⟩

/-- Settles O27: n ticks leave the timer at 1, and the next is its last. -/
theorem timerExpiresAtTheLastTick : Obligations.TimerExpiresAtTheLastTick := by
  intro s n rest hinv hrun htmr hin
  refine ⟨fun k hk => ?_, ?_⟩
  · obtain ⟨t, ht, -, htimer, -⟩ := runSteps_tickOnly hinv hin (Nat.le_succ_of_le hk)
    rw [Timer.tick_iterate hrun htmr hk] at htimer
    obtain ⟨htmr', hrun', hcount, hflag⟩ := Timer.mk.inj htimer
    have hleft : (s.tmr - BitVec.ofNat 32 k).toNat = n + 1 - k := by bv_omega
    exact ⟨t, ht, htmr' ▸ hleft, hrun'.trans hrun, hcount, hflag⟩
  · obtain ⟨t, ht, -, htimer, hwindow⟩ := runSteps_tickOnly hinv hin le_rfl
    rw [Timer.tick_iterate_last hrun htmr] at htimer
    obtain ⟨htmr', hrun', hcount, hflag⟩ := Timer.mk.inj htimer
    obtain ⟨hbase, hnext, hbuf⟩ := Window.mk.inj hwindow
    exact ⟨t, ht, htmr', hrun', hcount, hflag, hbase, hnext, hbuf⟩

/-! ### An ACK and a tick in one cycle -/

/-- A cycle that runs a command is the command and the later sub-steps (R124, R125). -/
theorem step_of_runsCommand {s : State} {c : Instr} (h : runsCommand s.params s.currentInputs c) :
    step s = andThen (exec c (s.consumeInputs.setOut BusOut.zero)) (restOfCycle s.currentInputs) := by
  obtain ⟨hacc, rfl⟩ := h
  exact step_of_command hacc

/-- A cycle with an ACK inside the window and a tick takes the ACK first, and ticks the timer it leaves (R121). -/
theorem step_ack_tick {s : State} {a : BitVec 16} {rest : List Inputs} (hinv : Invariants s)
    (hlo : s.base.toNat ≤ a.toNat) (hhi : a.toNat < s.next.toNat)
    (hin : s.inputs = { Inputs.commandWrite (encode (.ack a)) with tick := true } :: rest) :
    ∃ t, step s = .next t ∧ t.base = a + 1 ∧ t.last = .ok ∧ timer t = (timer (acked a s)).tick := by
  have hmid : MidCycle (s.consumeInputs.setOut BusOut.zero) := { midCycle_of_invariants hinv with }
  have hexec := execAck_of_outstanding hmid hlo hhi
  obtain ⟨s1, hexec', hmid1⟩ := hmid.execAck a
  cases hexec.symm.trans hexec'
  obtain ⟨t, hint, -⟩ := (hmid1.tickSubstep s.currentInputs).internal
  have hcur : s.currentInputs = { Inputs.commandWrite (encode (.ack a)) with tick := true } := by
    rw [State.currentInputs, hin]
  have hruns : runsCommand s.params s.currentInputs (.ack a) := by
    rw [hcur]
    exact ⟨⟨rfl, rfl, rfl, busTarget_cmd _⟩, decodeWord_encode rfl⟩
  have hresp (u : State) : respSubstep s.currentInputs u = u := if_neg (by rw [hcur]; exact Bool.false_ne_true)
  have hrest := (internal_outsideChannel hint).trans (tickSubstep_outsideChannel _ _)
  refine ⟨t, ?_, eq_of_outsideChannel State.base hrest, eq_of_outsideChannel State.last hrest,
    (internal_timer hint).trans (tickSubstep_timer (by rw [hcur]) hmid1.timer)⟩
  rw [step_of_runsCommand hruns, exec, hexec, andThen_next, restOfCycle, hresp, hint]

/-- Settles O28: the ACK stops the timer or reloads it with ACT_TIMEOUT, and the tick counts what the ACK left. -/
theorem ackWinsOverExpiryInOneCycle : Obligations.AckWinsOverExpiryInOneCycle := by
  intro s a rest hinv hrun _ hlo hhi hin
  obtain ⟨t, hstep, hbase, hlast, htimer⟩ := step_ack_tick hinv hlo hhi hin
  obtain ⟨-, henabled⟩ := hinv.timer.2 hrun
  refine ⟨t, hstep, hbase, hlast, fun hempty => ?_, fun hleft hne => ?_, fun hleft hone => ?_⟩
  · have hstop : (acked a s).tmrRun = false := decide_eq_false fun h => h.1 hempty
    rw [Timer.tick_of_stopped hstop] at htimer
    obtain ⟨-, hrun', hcount, hflag⟩ := Timer.mk.inj htimer
    exact ⟨hrun'.trans hstop, hcount, hflag⟩
  · have hload : (acked a s).tmr = s.act.timeout := if_neg hleft
    have hrun' : (acked a s).tmrRun = true := decide_eq_true ⟨hleft, henabled⟩
    rw [Timer.tick_of_running hrun' (hload.trans_ne hne)] at htimer
    obtain ⟨htmr, hrun'', hcount, hflag⟩ := Timer.mk.inj htimer
    exact ⟨hrun''.trans hrun', htmr.trans (congrArg (· - 1) hload), hcount, hflag⟩
  · have hload : (acked a s).tmr = s.act.timeout := if_neg hleft
    have hrun' : (acked a s).tmrRun = true := decide_eq_true ⟨hleft, henabled⟩
    rw [Timer.tick_of_last hrun' (hload.trans hone)] at htimer
    obtain ⟨-, hrun'', hcount, hflag⟩ := Timer.mk.inj htimer
    exact ⟨hrun'', hcount, hflag⟩

end Sys2Proof.Proofs
end

section
/-! PROOFS. The retransmission after a TIMEOUT: each answered attempt is followed by the next number of the window (R102, R117, R123). -/

namespace Sys2Proof.Proofs

open Sys2Proof Sys2Proof.Machine Sys2Proof.Safety

/-- What the retransmission neither writes nor sees written: the window and the active configuration. -/
def session (s : State) : Window × ConfigRegs := (window s, s.act)

/-- In t, number j of the window of s, counted from BASE, is the next that an attempt will carry. -/
structure Reached (s : State) (j : Nat) (t : State) : Prop where
  inv : MidCycle t
  session : session t = session s
  txptr : t.txptr.toNat = s.base.toNat + j

/-- In t, number j of the window of s is on the TX port, and the one after it is next. -/
structure Presents (s : State) (j : Nat) (t : State) : Prop where
  inv : Invariants t
  reached : Reached s (j + 1) t
  cs : t.cs = .transmitting
  seq : t.txh.seq.toNat = s.base.toNat + j

variable {s t : State} {j : Nat}

theorem Reached.window_eq (h : Reached s j t) : t.base = s.base ∧ t.next = s.next ∧ t.buf = s.buf ∧ t.act = s.act := by
  obtain ⟨hwindow, hact⟩ := Prod.mk.inj h.session
  obtain ⟨hbase, hnext, hbuf⟩ := Window.mk.inj hwindow
  exact ⟨hbase, hnext, hbuf, hact⟩

/-- An unconfigured window is empty (R40). -/
theorem MidCycle.cfgValid_of_outstanding (h : MidCycle s) (hout : s.base.toNat < s.next.toNat) : s.cfgValid = true := by
  obtain ⟨-, -, -, -, hinit⟩ := h.window
  by_contra hv
  obtain ⟨hbase, -, hnext⟩ := hinit (by simpa using hv)
  omega

/-- The internal sub-step of an idle unit starts the attempt of the number reached (R102). -/
theorem internal_presents (h : Reached s j t) (hcs : t.cs = .idle) (hj : j < s.next.toNat - s.base.toNat) :
    ∃ u, internal t = .next u ∧ Presents s j u := by
  obtain ⟨hbase, hnext, -, -⟩ := h.window_eq
  obtain ⟨-, -, hnl, -, -⟩ := h.inv.window
  have htxptr := h.txptr
  have hlt : t.txptr.toNat < t.next.toNat := by rw [hnext]; omega
  have hvalid := h.inv.cfgValid_of_outstanding (by rw [hbase, hnext]; omega)
  obtain ⟨p, -, heq⟩ := attemptStartLatchesTheFrameAtTxptr t h.inv.window h.inv.buffer hcs hvalid hlt
  obtain ⟨u, hu, huinv⟩ := h.inv.internal
  cases heq.symm.trans hu
  have hptr : (t.txptr + 1).toNat = s.base.toNat + (j + 1) := by
    rw [h.inv.add_one_toNat (by omega)]
    omega
  exact ⟨_, heq, huinv, ⟨midCycle_of_invariants huinv, h.session, hptr⟩, rfl, htxptr⟩

/-- A cycle of a response with no collision to a presented frame starts the attempt of the number reached (R105). -/
theorem step_respOnly_presents (hin : t.currentInputs = respOnly false 0) (h : Reached s j t)
    (hcs : t.cs = .transmitting) (hj : j < s.next.toNat - s.base.toNat) :
    ∃ u, step t = .next u ∧ Presents s j u := by
  have hmid : MidCycle (t.consumeInputs.setOut BusOut.zero) := { h.inv with }
  have hsent := sentEndsTheAttemptAndStartsTheTimer (t.consumeInputs.setOut BusOut.zero) 0 hcs
  rw [step_respOnly hin]
  refine internal_presents ⟨hmid.respond false 0, ?_, ?_⟩ ?_ hj <;> rw [hsent]
  · exact h.session
  · exact h.txptr

/-- k more answers bring the number on the TX port k further. -/
theorem runSteps_presents {n k : Nat} {rest : List Inputs} (h : Presents s 0 t)
    (hin : t.inputs = List.replicate n (respOnly false 0) ++ rest) (hk : k ≤ n) (hj : k < s.next.toNat - s.base.toNat) :
    ∃ u, runSteps k t = .next u ∧ Presents s k u := by
  induction k with
  | zero => exact ⟨t, rfl, h⟩
  | succ k ih =>
    obtain ⟨u, hu, hpres⟩ := ih (by omega) (by omega)
    obtain ⟨v, hstep, hpres'⟩ := step_respOnly_presents (currentInputs_of_replicate hin hk hu) hpres.reached hpres.cs hj
    exact ⟨v, runSteps_succ hu hstep, hpres'⟩

theorem onTimeout_txptr (hout : s.next ≠ s.base) : (onTimeout s).txptr = s.base := by
  rw [onTimeout, if_neg hout]

/-- The command of a TIMEOUT cycle goes back to the first number of a window that is not empty (R117, R120). -/
def rewound (s : State) : State := (onTimeout (s.consumeInputs.setOut BusOut.zero)).setStatus .ok

theorem reached_rewound (hinv : Invariants s) (hout : s.next ≠ s.base) : Reached s 0 (rewound s) := by
  have hmid : MidCycle (s.consumeInputs.setOut BusOut.zero) := { midCycle_of_invariants hinv with }
  refine ⟨hmid.onTimeout.setStatus .ok, ?_, ?_⟩
  · rw [rewound, onTimeout_frame]
    rfl
  · exact congrArg BitVec.toNat (onTimeout_txptr (s := s.consumeInputs.setOut BusOut.zero) hout)

/-- A TIMEOUT leaves the unit as it is (R117). -/
theorem rewound_cs (s : State) : (rewound s).cs = s.cs := by
  rw [rewound, onTimeout_frame]
  rfl

theorem step_timeout {rest : List Inputs} (hin : s.inputs = Inputs.commandWrite (encode .timeout) :: rest) :
    step s = internal (rewound s) := by
  have hcur : s.currentInputs = Inputs.commandWrite (encode .timeout) := by rw [State.currentInputs, hin]
  have hruns : runsCommand s.params s.currentInputs .timeout := by
    rw [hcur]
    exact ⟨accesses_commandWrite _ _, decodeWord_encode rfl⟩
  rw [step_of_runsCommand hruns, hcur]
  rfl

/-- The TIMEOUT cycle, and the answer for a frame held then, put the first number of the window on the TX port. -/
theorem runSteps_timeout {held : Nat} {more : List Inputs} (hinv : Invariants s)
    (hheld : s.cs = .idle ∧ held = 0 ∨ s.cs = .transmitting ∧ held = 1) (hout : 0 < s.next.toNat - s.base.toNat)
    (hin : s.inputs = Inputs.commandWrite (encode .timeout) :: (List.replicate held (respOnly false 0) ++ more)) :
    ∃ t, runSteps (held + 1) s = .next t ∧ Presents s 0 t := by
  have hreached := reached_rewound hinv fun hempty => by rw [hempty] at hout; omega
  have hstep := step_timeout hin
  obtain ⟨hcs, rfl⟩ | ⟨hcs, rfl⟩ := hheld
  · obtain ⟨t, hint, hpres⟩ := internal_presents hreached ((rewound_cs s).trans hcs) hout
    exact ⟨t, runSteps_succ (n := 0) rfl (hstep.trans hint), hpres⟩
  · have hbusy : (rewound s).cs = .transmitting := (rewound_cs s).trans hcs
    have hquiet : internal (rewound s) = .next (rewound s) := internal_of_settled (by simp [hbusy]) (by simp [hbusy])
    have hrewind := hstep.trans hquiet
    have hanswer : (rewound s).currentInputs = respOnly false 0 := by
      rw [State.currentInputs, step_inputs hrewind, hin]
      rfl
    obtain ⟨t, hstep', hpres⟩ := step_respOnly_presents hanswer hreached hbusy hout
    exact ⟨t, runSteps_succ (n := 1) (runSteps_succ (n := 0) rfl hrewind) hstep', hpres⟩

/-- A frame on the TX port carries the codeword of its buffered payload (R47, R102). -/
theorem Presents.frame (h : Presents s j t) (hinv : Invariants s) (hj : j < s.next.toNat - s.base.toNat) :
    ∃ p, Buffer.get s.buf (s.base.toNat + j) = some p ∧ t.txh.frame = encodeWith s.act p := by
  obtain ⟨-, -, hbuf, hact⟩ := h.reached.window_eq
  obtain ⟨p, hp⟩ := Buffer.get_of_keys hinv.buffer (q := s.base.toNat + j) (by omega) (by omega)
  have hvalid : t.txh.valid = true := h.reached.inv.held.1 (by simp [h.cs])
  obtain ⟨-, hframe⟩ := h.inv.holdFromBuffer hvalid
  rw [h.seq, hbuf, hact, hp] at hframe
  exact ⟨p, hp, (beq_iff_eq.1 hframe).symm⟩

/-- Settles O29: the window is presented from its first number on, one further with each answer. -/
theorem timeoutResendsTheWindowInOrder : Obligations.TimeoutResendsTheWindowInOrder := by
  intro s held k rest hinv hheld hk hin
  rw [List.replicate_add, List.append_assoc] at hin
  obtain ⟨u, hu, hfirst⟩ := runSteps_timeout hinv hheld (Nat.zero_lt_of_lt hk) hin
  have huin : u.inputs = List.replicate k (respOnly false 0) ++ rest := by
    rw [runSteps_inputs hu, hin, List.drop_succ_cons, List.drop_left' (List.length_replicate ..)]
  obtain ⟨t, ht, hpres⟩ := runSteps_presents hfirst huin le_rfl hk
  obtain ⟨p, hp, hframe⟩ := hpres.frame hinv hk
  obtain ⟨hbase, hnext, hbuf, -⟩ := hpres.reached.window_eq
  have hport : (txPort t).valid = true := by rw [txPort, hpres.cs]; rfl
  refine ⟨t, p, ?_, hport, hpres.seq, hp, hframe, hbuf, hbase, hnext⟩
  rw [Nat.add_right_comm, runSteps_add, hu, andThen_next, ht]

end Sys2Proof.Proofs
end

section
/-! PROOFS. A cycle that runs a command (R124, R125), what every command keeps, and the commands of no unit branch by branch: NOP, illegal words, CONFIGURE and TEARDOWN (R126 to R129). -/

namespace Sys2Proof.Proofs

open Sys2Proof Sys2Proof.Machine Sys2Proof.Safety

/-! ### The cycle of a command -/

/-- Settles O11: the operands, the parameters and the model's own fields are in the frame of every command. -/
theorem everyCommandCompletesAndKeepsItsOperands : Obligations.EveryCommandCompletesAndKeepsItsOperands := by
  intro c s
  obtain ⟨t, hexec, hframe⟩ := exec_commandFrame c s
  exact ⟨t, hexec, hframe.data, hframe.cfg, hframe.params, hframe.inputs, hframe.out⟩

/-- In a cycle that presents a word and nothing else, of the later sub-steps the internal one alone can act. -/
theorem step_withCommandWord (s : State) (w : Word) :
    step (s.withCommandWord w) = andThen (exec (decodeWord w) { s with out := BusOut.zero }) internal :=
  step_of_command (s := s.withCommandWord w) (accesses_commandWrite s.params w)

/-- Settles O5: a write to CMD is the command and the later sub-steps, and both ways of presenting a word are the
cycle of that write alone. -/
theorem stepRunsTheDecodedCommand : Obligations.StepRunsTheDecodedCommand := by
  refine ⟨fun s i rest hin hacc => ?_, fun s c hwf => ?_, fun s w hw => ?_⟩
  · have hcur : s.currentInputs = i := by rw [State.currentInputs, hin]
    have htail : s.consumeInputs = { s with inputs := rest } := by rw [State.consumeInputs, hin, List.tail_cons]
    rw [step_of_command (hcur ▸ hacc), hcur, htail]
    rfl
  · rw [step_withCommandWord, decodeWord_encode hwf]
  · rw [State.withFetchWord, Nat.mod_eq_of_lt hw, step_withCommandWord]

/-! ### NOP and illegal words -/

/-- STATUS[3:0] reads as the code of LAST (R22, R140). -/
theorem readReg_status_of_last {s : State} {c : StatusCode} (h : s.last = c) :
    (readReg s .status).extractLsb' 0 4 = c.code :=
  (statusWord_last s).trans (congrArg StatusCode.code h)

/-- Settles O51: both arms only report, and a word that is not legal decodes to the illegal row. -/
theorem nopAndIllegalWordsOnlyWriteLast : Obligations.NopAndIllegalWordsOnlyWriteLast := by
  refine ⟨decodeWord_encode (i := .nop) rfl, fun _ => rfl, fun _ => readReg_status_of_last, fun _ _ => rfl,
    fun w s hillegal => ?_, fun _ => readReg_status_of_last⟩
  rw [executeWord, decodeWord_of_illegal hillegal]
  rfl

/-! ### CONFIGURE and TEARDOWN -/

theorem execConfigure_invalidKey {s : State} (hm : s.cfg.mode = .crc) (hk : keyValid s.cfg.key = false) :
    execConfigure s = .next (s.setStatus .invalidKey) :=
  if_pos ⟨hm, hk⟩

theorem execConfigure_invalidConfig {s : State} (hkey : s.cfg.mode = .crc → keyValid s.cfg.key = true)
    (hwin : s.cfg.win.toNat < 1 ∨ s.params.wmax < s.cfg.win.toNat) :
    execConfigure s = .next (s.setStatus .invalidConfig) := by
  have hpass : ¬(s.cfg.mode = .crc ∧ keyValid s.cfg.key = false) := fun ⟨hm, hbad⟩ => by simp [hkey hm] at hbad
  rw [execConfigure, if_neg hpass, if_pos hwin]

/-- Settles O52: one clause for each error of CONFIGURE, in the order of its tests, and the session it starts. -/
theorem configureInstallsTheStagedConfiguration : Obligations.ConfigureInstallsTheStagedConfiguration := by
  refine ⟨decodeWord_encode (i := .configure) rfl, fun s => ⟨execConfigure_invalidKey, fun hkey hwin => ?_,
    fun hkey hne hhi => execConfigure_of_valid hkey (BitVec.toNat_pos_of_ne_zero hne) hhi⟩⟩
  refine execConfigure_invalidConfig hkey (hwin.imp_left fun hzero => ?_)
  rw [hzero]
  exact Nat.zero_lt_one

/-- Settles O53: TEARDOWN is the session reset and a report, and writes nothing else. -/
theorem teardownRestartsTheSession : Obligations.TeardownRestartsTheSession :=
  ⟨decodeWord_encode (i := .teardown) rfl, fun s =>
    show execTeardown s = .next ((sessionReset s).setStatus .ok) from rfl⟩

end Sys2Proof.Proofs
end

section
/-! PROOFS. The receiver on a presented frame: a codeword gives its payload back, and the frame of an outstanding number is the codeword of what BUF has under it (R47, R134, R136). -/

namespace Sys2Proof.Proofs

open Sys2Proof Sys2Proof.Machine Sys2Proof.Safety

/-! ### The payload of a codeword -/

/-- Both encoders put the payload above its redundancy (R88, R89). -/
theorem encodeWith_bits {c : ConfigRegs} {p : BitString} (hp : wellFormed 1024 p = true)
    (hfit : p.len.toNat + redundancy c ≤ 1024) (hkey : c.mode = .crc → keyValid c.key = true) :
    ∃ rem : Bits, rem.toNat < 2 ^ redundancy c ∧ (encodeWith c p).bits = p.bits <<< redundancy c ||| rem := by
  obtain ⟨-, hbits⟩ := (wellFormed_iff _ _).1 hp
  cases hm : c.mode with
  | crc =>
    obtain ⟨hg, -⟩ := (keyValid_iff _).1 (hkey hm)
    rw [redundancy_of_crc hm] at hfit ⊢
    rw [encodeWith_of_crc hm]
    exact ⟨_, polymod_lt hg hfit (shiftLeft_lt_two_pow hbits), rfl⟩
  | parity =>
    rw [redundancy_of_parity hm, encodeWith_of_parity hm]
    refine ⟨_, ?_, rfl⟩
    rw [BitVec.toNat_ofNat]
    exact (Nat.mod_le _ _).trans_lt (Nat.mod_lt _ (by decide))

theorem getLsbD_of_lt_two_pow {v : Bits} {n i : Nat} (hv : v.toNat < 2 ^ n) (hi : n ≤ i) : v.getLsbD i = false :=
  Nat.testBit_lt_two_pow (hv.trans_le (Nat.pow_le_pow_right (by decide) hi))

/-- A value shifted up without loss, over a lower part, comes back when the lower part is shifted out. -/
theorem shiftLeft_or_shiftRight {v rem : Bits} {n r : Nat} (hv : v.toNat < 2 ^ n) (hn : n + r ≤ 1024)
    (hrem : rem.toNat < 2 ^ r) : (v <<< r ||| rem) >>> r = v := by
  refine BitVec.eq_of_getLsbD_eq fun i _ => ?_
  rw [BitVec.getLsbD_ushiftRight, BitVec.getLsbD_or, BitVec.getLsbD_shiftLeft,
    getLsbD_of_lt_two_pow hrem (Nat.le_add_right r i), Bool.or_false, Nat.add_sub_cancel_left]
  by_cases hi : i < n
  · simp [show r + i < 1024 by omega]
  · rw [getLsbD_of_lt_two_pow hv (Nat.le_of_not_lt hi), Bool.and_false]

/-- R136: a codeword without its redundancy is the payload it encodes. -/
theorem payloadOf_encodeWith {c : ConfigRegs} {p : BitString} (hp : wellFormed 1024 p = true)
    (hfit : p.len.toNat + redundancy c ≤ 1024) (hkey : c.mode = .crc → keyValid c.key = true) :
    payloadOf c (encodeWith c p) = p := by
  obtain ⟨-, hbits⟩ := (wellFormed_iff _ _).1 hp
  obtain ⟨rem, hrem, hword⟩ := encodeWith_bits hp hfit hkey
  have hlen : (encodeWith c p).len.toNat - redundancy c = p.len.toNat := by
    rw [encodeWith_len, BitVec.toNat_ofNat, Nat.mod_eq_of_lt (by omega), Nat.add_sub_cancel]
  rw [payloadOf, hlen, hword, shiftLeft_or_shiftRight hbits hfit hrem, BitVec.ofNat_toNat, BitVec.setWidth_eq]

/-! ### The receiver -/

/-- A word that fails verification is dropped, whatever number is expected (R136). -/
theorem onFrame_of_rejected {c : ConfigRegs} {f : Frame} (h : verifyWith c f.cw = false) (reAck : Bool)
    (expected : BitVec 16) : onFrame c reAck expected f = (.drop, expected) :=
  if_pos h

/-- A word that verifies, under the expected number, is handed up and acknowledged (R136). -/
theorem onFrame_of_expected {c : ConfigRegs} {f : Frame} (h : verifyWith c f.cw = true) (reAck : Bool) :
    onFrame c reAck f.seq f = (.deliver (payloadOf c f.cw) f.seq, f.seq + 1) := by
  rw [onFrame, if_neg (by simp [h]), if_pos rfl]

/-! ### The presented frame -/

variable {s : State} {f : Frame} {p : BitString}

theorem presentedFrame_eq_some_iff :
    presentedFrame s = some f ↔ s.cs = .transmitting ∧ f = ⟨s.txh.seq, s.txh.frame⟩ := by
  simp [presentedFrame, eq_comm]

/-- R47: the frame of an outstanding number carries the codeword of the payload buffered under it. -/
theorem presentedFrame_cw (hinv : Invariants s) (hf : presentedFrame s = some f)
    (hget : Buffer.get s.buf f.seq.toNat = some p) : f.cw = encodeWith s.act p := by
  obtain ⟨hcs, rfl⟩ := presentedFrame_eq_some_iff.1 hf
  obtain ⟨hheld, -⟩ := hinv.csma
  obtain ⟨-, hframe⟩ := hinv.holdFromBuffer (hheld.1 (by simp [hcs]))
  rw [hget] at hframe
  exact (beq_iff_eq.1 hframe).symm

/-- A buffered payload fits with its redundancy, and the active key is valid (R44, R90, R127). -/
theorem encodable_of_get {q : Nat} (hinv : Invariants s) (hget : Buffer.get s.buf q = some p) :
    s.params.bmax ≤ 1024 ∧ wellFormed s.params.bmax p = true ∧ p.len.toNat + redundancy s.act ≤ s.params.bmax
      ∧ (s.act.mode = .crc → keyValid s.act.key = true) := by
  have hmid := midCycle_of_invariants hinv
  obtain ⟨-, hcap, -⟩ := params_legal_iff.1 hinv.legal
  obtain ⟨hp, hfit⟩ := hmid.payloads _ (Buffer.mem_of_get hget)
  obtain ⟨hlo, hhi⟩ := outstanding_of_get hinv.buffer hget
  obtain ⟨-, -, hkey⟩ := hinv.active (hmid.cfgValid_of_outstanding (hlo.trans_lt hhi))
  exact ⟨hcap, hp, hfit, hkey⟩

/-- Settles O59: the frame carries the payload's codeword, which verifies and gives the payload back. -/
theorem receiverGetsTheBufferedPayload : Obligations.ReceiverGetsTheBufferedPayload := by
  intro s f p reAck hinv hf hget
  obtain ⟨hcap, hp, hfit, hkey⟩ := encodable_of_get hinv hget
  have hcw := presentedFrame_cw hinv hf hget
  have hverify : verifyWith s.act f.cw = true := by
    rw [hcw]
    exact verifyAcceptsEveryCodeword s.act s.params.bmax p hcap hp hkey hfit
  have hpayload : payloadOf s.act f.cw = p := by
    rw [hcw]
    exact payloadOf_encodeWith (wellFormed_mono hcap hp) (hfit.trans hcap) hkey
  refine ⟨f, rfl, ?_⟩
  rw [onFrame_of_expected hverify, hpayload]

/-- Settles O60: the frame carries the payload's CRC codeword, and no codeword with one bit flipped verifies. -/
theorem receiverDropsASingleBitCorruption : Obligations.ReceiverDropsASingleBitCorruption := by
  intro s f p reAck expected i hinv hm hf hget hi
  obtain ⟨hcap, hp, hfit, hkey⟩ := encodable_of_get hinv hget
  have hcw : f.cw = crcEncode s.act.key p := by rw [presentedFrame_cw hinv hf hget, encodeWith_of_crc hm]
  rw [redundancy_of_crc hm] at hfit
  rw [hcw] at hi
  refine ⟨_, rfl, onFrame_of_rejected ?_ reAck expected⟩
  rw [verifyWith_of_crc hm, hcw]
  exact crcRejectsEverySingleBitFlip s.act.key s.params.bmax p i hcap hp (hkey hm) hfit hi

end Sys2Proof.Proofs
end

section
/-! PROOFS. Which cycles can stop, change nothing, or leave the status code alone (R141, R143, R151). -/

namespace Sys2Proof.Proofs

open Sys2Proof Sys2Proof.Machine Sys2Proof.Safety

/-! ### Steps that answer -/

/-- Settles O9: along a cycle the mid-cycle part of the invariants holds, so an attempt start, the one sub-step that
could stop, finds its frame. -/
theorem noStepStopsUnderTheInvariants : Obligations.NoStepStopsUnderTheInvariants := by
  intro s hinv
  obtain ⟨t, hstep, -⟩ := step_of_invariants hinv
  exact ⟨t, hstep⟩

/-! ### The quiet cycle -/

/-- With neither a response nor a tick, the internal sub-step alone follows the bus access. -/
theorem restOfCycle_of_no_response_or_tick {i : Inputs} (hresp : i.respValid = false) (htick : i.tick = false)
    (s : State) : restOfCycle i s = internal s := by
  rw [restOfCycle, respSubstep, if_neg (by simp [hresp]), tickSubstep, if_neg (by simp [htick])]

/-- Settles O10: only the internal sub-step could act, and under the invariants no backoff is over and no frame waits
to start. -/
theorem quietCycleChangesNothing : Obligations.QuietCycleChangesNothing := by
  intro s hinv hquiet
  obtain ⟨hrst, hbus, hresp, htick⟩ := hquiet
  obtain ⟨-, -, -, hbackoff⟩ := hinv.csma
  rw [step_of_no_access hrst hbus, restOfCycle_of_no_response_or_tick hresp htick]
  exact internal_of_settled (s := s.consumeInputs.setOut BusOut.zero) hbackoff hinv.started

/-! ### The writer of LAST -/

/-- A bus access that is no write to CMD leaves LAST alone. -/
theorem busSubstep_last {i : Inputs} {s t : State} (h : busSubstep i s = .next t) (hrst : i.rst = false)
    (hcmd : ¬accesses s.params i true .cmd) : t.last = s.last := by
  obtain ⟨-, heq⟩ | ⟨_, -, -, heq⟩ | ⟨_, -, -, -, heq⟩ | ⟨hv, hw, ht, -⟩ | ⟨_, -, -, -, -, heq⟩ := busSubstep_cases i s
  · cases heq.symm.trans h
    exact State.setOut_last _ _
  · cases heq.symm.trans h
    exact State.setOut_last _ _
  · cases heq.symm.trans h
    exact State.setOut_last _ _
  · exact absurd ⟨hrst, hv, hw, hw ▸ ht⟩ hcmd
  · cases heq.symm.trans h
    rw [writeReg_frame, State.setOut_last]

/-- Settles O55: no bus access but a command writes LAST, and no later sub-step does. -/
theorem onlyCommandsWriteLast : Obligations.OnlyCommandsWriteLast := by
  intro s t h hrst hcmd
  obtain ⟨s1, hbus, hrest, -⟩ := step_eq_busSubstep_outsideChannel h hrst
  rw [eq_of_outsideChannel State.last hrest, busSubstep_last hbus hrst hcmd, State.consumeInputs_last]

end Sys2Proof.Proofs
end

section
/-! PROOFS. Cycles in which sub-steps meet: reset against every other input (R152), a session reset and a response (R155), and a SEND that the attempt start of its own cycle takes up (R162). -/

namespace Sys2Proof.Proofs

open Sys2Proof Sys2Proof.Machine Sys2Proof.Safety

/-! ### A SEND and its attempt start -/

/-- With the unit idle, every frame of a settled session has started: TXPTR is at NEXT (R40, R151). -/
theorem txptr_eq_next_of_idle {s : State} (hinv : Invariants s) (hcs : s.cs = .idle) (hv : s.cfgValid = true) :
    s.txptr = s.next := by
  obtain ⟨-, hle, -, -, -⟩ := hinv.window
  have hstarted : ¬s.txptr.toNat < s.next.toNat := fun hlt => hinv.started ⟨hcs, hv, hlt⟩
  exact BitVec.eq_of_toNat_eq (by omega)

/-- Settles O33: TXPTR is at the number that SEND queues, so the internal sub-step of the cycle latches its codeword. -/
theorem acceptedSendIsPresentedInItsCycle : Obligations.AcceptedSendIsPresentedInItsCycle := by
  intro s hinv hcs hv ho hf hwin hlimit
  have hptr := txptr_eq_next_of_idle hinv hcs hv
  have hinv' : Invariants { s with out := BusOut.zero } := { hinv with }
  obtain ⟨buf, hexec, hnext, hget⟩ := sendQueuesThePayloadUnderNext _ hinv' hv ho hf hwin hlimit
  obtain ⟨u, hexec', hmid⟩ := (midCycle_of_invariants hinv').exec .send
  cases hexec.symm.trans hexec'
  have hlt : s.txptr.toNat < (s.next + 1).toNat := by rw [hptr, hnext]; exact Nat.lt_succ_self _
  obtain ⟨p, hp, hstart⟩ := attemptStartLatchesTheFrameAtTxptr _ hmid.window hmid.buffer hcs hv hlt
  have hdata : some p = some s.data := by rw [← hp, hget]; exact if_pos (congrArg BitVec.toNat hptr)
  cases hdata
  have hstep := step_withCommandWord s (encode .send)
  rw [decodeWord_encode rfl, hexec, andThen_next, hstart] at hstep
  exact ⟨_, hstep, rfl, rfl, congrArg (· + 1) hptr, congrArg (TxPort.mk true · _ _) hptr⟩

/-! ### A session reset and a response -/

/-- TEARDOWN, and a CONFIGURE that passes its checks, end in a session reset that keeps flags and counters (R127 to
R129). -/
theorem exec_eq_sessionReset {c : Instr} {s : State}
    (h : c = .teardown ∨ c = .configure ∧ (s.cfg.mode = .crc → keyValid s.cfg.key = true) ∧ s.cfg.win ≠ 0
      ∧ s.cfg.win.toNat ≤ s.params.wmax) :
    ∃ u, exec c s = .next ((sessionReset u).setStatus .ok) ∧ u.flags = s.flags ∧ u.counters = s.counters := by
  obtain rfl | ⟨rfl, hkey, hwin, hmax⟩ := h
  · exact ⟨s, rfl, rfl, rfl⟩
  · exact ⟨_, execConfigure_of_valid hkey (BitVec.toNat_pos_of_ne_zero hwin) hmax, rfl, rfl⟩

/-- After a session reset a response answers no attempt, and nothing waits to start or to return (R104, R155). -/
theorem restOfCycle_sessionReset {i : Inputs} (hresp : i.respValid = true) (htick : i.tick = false) (s : State)
    (c : StatusCode) :
    restOfCycle i ((sessionReset s).setStatus c) = .next (spurious ((sessionReset s).setStatus c)) := by
  have hspurious : respSubstep i ((sessionReset s).setStatus c) = spurious ((sessionReset s).setStatus c) :=
    (if_pos hresp).trans (spuriousResponseOnlySetsItsFlag _ _ _ nofun)
  rw [restOfCycle, hspurious, tickSubstep, if_neg (by simp [htick])]
  exact internal_sessionReset (spurious s) c

/-- Settles O54: the session reset comes before the response, which finds the unit idle. -/
theorem responseInTheSessionResetCycleIsSpurious : Obligations.ResponseInTheSessionResetCycleIsSpurious := by
  intro s c collision draw rest _ hc hin
  have hcur : s.currentInputs = { Inputs.commandWrite (encode c) with
      respValid := true, respCollision := collision, boDraw := draw } := by rw [State.currentInputs, hin]
  have hwf : c.wf = true := by obtain rfl | ⟨rfl, -⟩ := hc <;> rfl
  have hruns : runsCommand s.params s.currentInputs c := by
    rw [hcur]
    exact ⟨⟨rfl, rfl, rfl, busTarget_cmd _⟩, decodeWord_encode hwf⟩
  obtain ⟨u, hexec, hflags, hcounters⟩ := exec_eq_sessionReset (s := s.consumeInputs.setOut BusOut.zero) hc
  refine ⟨spurious ((sessionReset u).setStatus .ok), ?_, rfl, ?_, hcounters, rfl, rfl, rfl⟩
  · rw [step_of_runsCommand hruns, hexec, andThen_next, hcur]
    exact restOfCycle_sessionReset rfl rfl u .ok
  · exact congrArg (fun f : StickyFlags => { f with spur := true }) hflags

/-! ### Reset -/

/-- A cycle with rst = 1 is the reset, whatever its other inputs (R152). -/
theorem step_of_rst {s : State} (h : s.currentInputs.rst = true) : step s = .next (resetAll s.consumeInputs) :=
  if_pos h

/-- STATUS reads 0 after reset (R152). -/
theorem readReg_status_resetFor (p : Params) : readReg (State.resetFor p) .status = 0 := by
  simp [readReg, statusWord, State.resetFor, StickyFlags.clear, StatusCode.code]

/-- Settles O6: the reset state holds every value of the table, and a legal SEQ_INIT fits the sequence registers. -/
theorem resetCycleRestoresEveryElement : Obligations.ResetCycleRestoresEveryElement := by
  intro s i rest hlegal hin hrst
  have hseq := seqInit_toNat hlegal
  have hstatus := readReg_status_resetFor s.params
  obtain ⟨hstate, -⟩ := stateRegisterShowsTheDerivedFields
  have hcur : s.currentInputs = i := by rw [State.currentInputs, hin]
  exact ⟨_, step_of_rst (hcur ▸ hrst), hstatus, hstate _, rfl, rfl, rfl, rfl, rfl, rfl, hseq, hseq, hseq, rfl, rfl, rfl,
    rfl, rfl, rfl, rfl, rfl, rfl, rfl, rfl⟩

end Sys2Proof.Proofs
end
